-- ==== Sys2Proof/Word.lean ====
section
/-! DEFINITION. The widths every other file speaks of: bytes, 64-bit words, and the two addresses of IMG_BUF. -/

namespace Sys2Proof

/-- A byte: every data path of the block is 8 bits wide (R7). -/
abbrev Byte := BitVec 8

/-- A command word, a response's data word or STATUS: 64 bits (R31, R70, R80). -/
abbrev Word := BitVec 64

/-- A byte address of IMG_BUF: 9 bits, 0 to 511 (R7, R50). -/
abbrev Addr := BitVec 9

end Sys2Proof
end

