-- ==== Sys2Proof/Syntax.lean ====
section
/-! DEFINITION. The commands of the block as syntax (R72), the operand fields by name (R74, R82) and the
enumerations of R75. -/

namespace Sys2Proof

/-- A command of the block, one constructor per row of spec/opcode_table.json, with its operand lanes as the
format of R71 names them. An operand is the raw byte of its lane: a value outside its legal set is a legal word
that ends in ValidationError (R77), so it must be expressible here. -/
inductive Instr where
  | encodeFrame (kind mode param1 param2 color flag : Byte)
  | encodeColor (r g b present : Byte)
  | imgClear
  | imgWriteSlot (slot r g b present : Byte)
  | imgLoadBegin
  | imgLoadByte (data : Byte)
  | imgReadByte (addr : Addr)
  | sessionOpen
  | sessionClose
  | applyPreset (mode speed brightness color : Byte)
  | applyCustom
  | readStatus
deriving DecidableEq, Repr

/-- The operand fields a ValidationError can name, and "no field" (R74, R82). Codes 9 to 15 are never
produced (U12), so no constructor stands for them. -/
inductive FieldCode where
  | noField | kind | mode | param1 | param2 | color | flag | slot | present
deriving DecidableEq, Repr

/-- Kind of a frame (R75). -/
inductive Kind where
  | preset | readConfig | customConfig
deriving DecidableEq, Repr

/-- Lighting effect selector (R75). Value 3 (wave) is no mode: it must never be emitted (C2). -/
inductive Mode where
  | static | breathing | fadeOnKeypress | marquee | ripple | flashOnKeypress | neon | rainbowMarquee | raindrop
  | circleMarquee | hedge | rotate | custom
deriving DecidableEq, Repr

/-- Named color index of a frame (R75). -/
inductive Color where
  | black | red | green | yellow | blue | orange | purple | white
deriving DecidableEq, Repr

end Sys2Proof
end

