-- ==== Sys2Proof/Decode.lean ====
section
/-! DEFINITION. Command words: lanes (R10), formats (R71), opcode map (R72), decoding (R78) and encoding (R86). -/

namespace Sys2Proof

/-- L(w, i), byte lane i of a word: bits [8i+7:8i] (R10). -/
def lane (w : Word) (i : Nat) : Byte := w.extractLsb' (8 * i) 8

/-- The word with the given lanes, lane 7 first (the formula of R86). -/
def pack (l7 l6 l5 l4 l3 l2 l1 l0 : Byte) : Word :=
  l7.setWidth 64 <<< 56 ||| l6.setWidth 64 <<< 48 ||| l5.setWidth 64 <<< 40 ||| l4.setWidth 64 <<< 32 |||
  l3.setWidth 64 <<< 24 ||| l2.setWidth 64 <<< 16 ||| l1.setWidth 64 <<< 8 ||| l0.setWidth 64

/-- The operations an opcode byte can name (R72). -/
inductive Opcode where
  | encodeFrame | encodeColor | imgClear | imgWriteSlot | imgLoadBegin | imgLoadByte | imgReadByte
  | sessionOpen | sessionClose | applyPreset | applyCustom | readStatus
deriving DecidableEq, Repr

/-- The opcode map (R72). -/
def Opcode.toByte : Opcode → Byte
  | .encodeFrame => 0x01
  | .encodeColor => 0x02
  | .imgClear => 0x10
  | .imgWriteSlot => 0x11
  | .imgLoadBegin => 0x12
  | .imgLoadByte => 0x13
  | .imgReadByte => 0x14
  | .sessionOpen => 0x20
  | .sessionClose => 0x21
  | .applyPreset => 0x22
  | .applyCustom => 0x23
  | .readStatus => 0x30

/-- Every opcode of the map (R72). -/
def Opcode.all : List Opcode :=
  [.encodeFrame, .encodeColor, .imgClear, .imgWriteSlot, .imgLoadBegin, .imgLoadByte, .imgReadByte, .sessionOpen,
   .sessionClose, .applyPreset, .applyCustom, .readStatus]

/-- The opcode map read backwards; the other 244 values name nothing (R72). -/
def Opcode.ofByte? (b : Byte) : Option Opcode := Opcode.all.find? fun op => op.toByte == b

/-- The operand formats (R71). -/
inductive Format where
  | n | f | p | r | s | b | a
deriving DecidableEq, Repr

/-- The format of each opcode (R72). -/
def Opcode.format : Opcode → Format
  | .encodeFrame => .f
  | .encodeColor => .r
  | .imgClear => .n
  | .imgWriteSlot => .s
  | .imgLoadBegin => .n
  | .imgLoadByte => .b
  | .imgReadByte => .a
  | .sessionOpen => .n
  | .sessionClose => .n
  | .applyPreset => .p
  | .applyCustom => .n
  | .readStatus => .n

/-- The lanes a format marks "0" (R71). -/
def Format.zeroLanes : Format → List Nat
  | .n => [0, 1, 2, 3, 4, 5, 6]
  | .f => [1]
  | .p => [0, 1, 6]
  | .r => [0, 5, 6]
  | .s => [5, 6]
  | .b => [1, 2, 3, 4, 5, 6]
  | .a => [2, 3, 4, 5, 6]

/-- Every lane the format marks "0" is zero and, in format A, bits [7:1] of lane 1 are (R71, R78). -/
def Format.zerosHold (fmt : Format) (w : Word) : Bool :=
  fmt.zeroLanes.all (fun i => lane w i == 0) && (fmt != .a || (lane w 1).extractLsb' 1 7 == 0)

/-- Why a word is illegal (R76). Either way the block answers IllegalCommand. -/
inductive Illegal where
  /-- Lane 7 is no opcode of R72. -/
  | unassignedOpcode
  /-- A lane or bit the format marks "0" is not zero. -/
  | nonzeroReserved
deriving DecidableEq, Repr

/-- The operands of a legal word, each from its lane (R71, R73). The address of format A is lane 1 bit 0 above lane 0: bits
[8:0] of the word. -/
def Opcode.operands (op : Opcode) (w : Word) : Instr :=
  match op with
  | .encodeFrame => .encodeFrame (lane w 0) (lane w 2) (lane w 3) (lane w 4) (lane w 5) (lane w 6)
  | .encodeColor => .encodeColor (lane w 1) (lane w 2) (lane w 3) (lane w 4)
  | .imgClear => .imgClear
  | .imgWriteSlot => .imgWriteSlot (lane w 0) (lane w 1) (lane w 2) (lane w 3) (lane w 4)
  | .imgLoadBegin => .imgLoadBegin
  | .imgLoadByte => .imgLoadByte (lane w 0)
  | .imgReadByte => .imgReadByte (w.extractLsb' 0 9)
  | .sessionOpen => .sessionOpen
  | .sessionClose => .sessionClose
  | .applyPreset => .applyPreset (lane w 2) (lane w 3) (lane w 4) (lane w 5)
  | .applyCustom => .applyCustom
  | .readStatus => .readStatus

/-- Decode a command word (R78): total, refusing an illegal word by name (R76). -/
def decode (w : Word) : Except Illegal Instr :=
  match Opcode.ofByte? (lane w 7) with
  | none => .error .unassignedOpcode
  | some op => if op.format.zerosHold w then .ok (op.operands w) else .error .nonzeroReserved

/-- The opcode of an instruction. -/
def Instr.opcode : Instr → Opcode
  | .encodeFrame .. => .encodeFrame
  | .encodeColor .. => .encodeColor
  | .imgClear => .imgClear
  | .imgWriteSlot .. => .imgWriteSlot
  | .imgLoadBegin => .imgLoadBegin
  | .imgLoadByte _ => .imgLoadByte
  | .imgReadByte _ => .imgReadByte
  | .sessionOpen => .sessionOpen
  | .sessionClose => .sessionClose
  | .applyPreset .. => .applyPreset
  | .applyCustom => .applyCustom
  | .readStatus => .readStatus

/-- Encode an instruction: its operands in the lanes of R71, every other lane zero, the opcode in lane 7 (R86). -/
def encode (i : Instr) : Word :=
  let op := i.opcode.toByte
  match i with
  | .encodeFrame kind mode param1 param2 color flag => pack op flag color param2 param1 mode 0 kind
  | .encodeColor r g b present => pack op 0 0 present b g r 0
  | .imgClear => pack op 0 0 0 0 0 0 0
  | .imgWriteSlot slot r g b present => pack op 0 0 present b g r slot
  | .imgLoadBegin => pack op 0 0 0 0 0 0 0
  | .imgLoadByte data => pack op 0 0 0 0 0 0 data
  | .imgReadByte addr => pack op 0 0 0 0 0 ((addr.extractLsb' 8 1).setWidth 8) (addr.extractLsb' 0 8)
  | .sessionOpen => pack op 0 0 0 0 0 0 0
  | .sessionClose => pack op 0 0 0 0 0 0 0
  | .applyPreset mode speed brightness color => pack op 0 color brightness speed mode 0 0
  | .applyCustom => pack op 0 0 0 0 0 0 0
  | .readStatus => pack op 0 0 0 0 0 0 0

/-- One row of spec/opcode_table.json. -/
structure TableRow where
  op : Opcode
  matchBits : Word
  maskBits : Word
deriving DecidableEq, Repr

/-- The match and mask of each opcode, as spec/opcode_table.json gives them (R72, R78). -/
def Opcode.row : Opcode → TableRow
  | .encodeFrame => ⟨.encodeFrame, 0x0100000000000000, 0xFF0000000000FF00⟩
  | .encodeColor => ⟨.encodeColor, 0x0200000000000000, 0xFFFFFF00000000FF⟩
  | .imgClear => ⟨.imgClear, 0x1000000000000000, 0xFFFFFFFFFFFFFFFF⟩
  | .imgWriteSlot => ⟨.imgWriteSlot, 0x1100000000000000, 0xFFFFFF0000000000⟩
  | .imgLoadBegin => ⟨.imgLoadBegin, 0x1200000000000000, 0xFFFFFFFFFFFFFFFF⟩
  | .imgLoadByte => ⟨.imgLoadByte, 0x1300000000000000, 0xFFFFFFFFFFFFFF00⟩
  | .imgReadByte => ⟨.imgReadByte, 0x1400000000000000, 0xFFFFFFFFFFFFFE00⟩
  | .sessionOpen => ⟨.sessionOpen, 0x2000000000000000, 0xFFFFFFFFFFFFFFFF⟩
  | .sessionClose => ⟨.sessionClose, 0x2100000000000000, 0xFFFFFFFFFFFFFFFF⟩
  | .applyPreset => ⟨.applyPreset, 0x2200000000000000, 0xFFFF00000000FFFF⟩
  | .applyCustom => ⟨.applyCustom, 0x2300000000000000, 0xFFFFFFFFFFFFFFFF⟩
  | .readStatus => ⟨.readStatus, 0x3000000000000000, 0xFFFFFFFFFFFFFFFF⟩

/-- The whole opcode table (R72). -/
def opcodeTable : List TableRow := Opcode.all.map Opcode.row

/-- The word lies in the row: (w & mask) == match (R78). -/
def TableRow.selects (row : TableRow) (w : Word) : Bool := w &&& row.maskBits == row.matchBits

/-- What the decoder reads from a table word of nbits bits, its higher bits zero. -/
def decodeTableWord (nbits w : Nat) : Option Instr :=
  (decode (BitVec.ofNat 64 (w % 2 ^ nbits))).toOption

/-- The wire value of a kind (R75). -/
def Kind.toByte : Kind → Byte
  | .preset => 0x08
  | .readConfig => 0x92
  | .customConfig => 0x12

/-- The wire value of a mode (R75). -/
def Mode.toByte : Mode → Byte
  | .static => 1
  | .breathing => 2
  | .fadeOnKeypress => 4
  | .marquee => 5
  | .ripple => 6
  | .flashOnKeypress => 7
  | .neon => 8
  | .rainbowMarquee => 9
  | .raindrop => 10
  | .circleMarquee => 11
  | .hedge => 12
  | .rotate => 13
  | .custom => 0x34

/-- The wire value of a color (R75). -/
def Color.toByte : Color → Byte
  | .black => 0
  | .red => 1
  | .green => 2
  | .yellow => 3
  | .blue => 4
  | .orange => 5
  | .purple => 6
  | .white => 7

end Sys2Proof
end

