-- ==== Sys2Proof/Config.lean ====
section
/-! DEFINITION. What is fixed for one block and not given by the spec: the parameters of R8 and the free value of R141.
Each is opaque, so no proof can see a value of it. -/

namespace Sys2Proof

/-- The device selection triple T_OPEN carries (R8, R160). Its widths are not in the spec (N3): DESIGN CHOICE,
log entry 6. -/
structure DeviceId where
  vid : Nat
  pid : Nat
  iface : Nat
deriving DecidableEq, Repr, Inhabited

/-- A logical key name. The spec calls it a string (R5); its alphabet is not given (N1). -/
abbrev KeyName := String

/-- VID, PID and IFACE (R8, D42): a parameter. -/
opaque Config.device : DeviceId

/-- KEY_LAYOUT (R8, D14): the key name at each slot, index i standing for slot i+1. A parameter. -/
opaque Config.keyLayout : Fin 128 → Option KeyName

/-- FREE VALUE: what the n-th read of a never-written byte of IMG_BUF returns (R141, D41, log entry 3). -/
opaque Config.imgDraw : Nat → Byte

end Sys2Proof
end

