-- ==== Sys2Proof/Machine/State.lean ====
section
/-! DEFINITION. The state of the block (R23) with its two ports and its observations (R15, R193), as plain data,
and the state after reset (R38, R230). -/

namespace Sys2Proof.Machine

/-- SESSION, the per-session state (R24). Values 6 and 7 are never written (U12), so no constructor stands for them. -/
inductive Session where
  | unopened | opened | preset | uploading | committed | failed
deriving DecidableEq, Repr

/-- Response codes (R81). Codes 7 to 15 are never produced (U12), so no constructor stands for them. -/
inductive RspCode where
  | ok | validationError | lengthError | deviceNotFound | transportError | illegalCommand | stateError
deriving DecidableEq, Repr

/-- A response: RSP_CODE, RSP_FIELD and RSP_DATA (R80). -/
structure Response where
  code : RspCode
  field : FieldCode
  data : Word
deriving DecidableEq, Repr

/-- The eight bytes of a frame, byte 0 first (R101): FRAME_REG and the payload of T_FEATURE. -/
structure Frame where
  kind : Byte
  byte1 : Byte
  mode : Byte
  param1 : Byte
  param2 : Byte
  color : Byte
  flag : Byte
  checksum : Byte
deriving DecidableEq, Repr

/-- A request to the transport with its payload (R160). -/
inductive Request where
  | openDevice (device : DeviceId)
  | feature (frame : Frame)
  | write (chunk : List Byte)
  | close
deriving DecidableEq, Repr

/-- What the transport side of the port gives to a request, before the request kind narrows it to its own outcomes
(Request.outcome; log entry 1). -/
inductive Answer where
  | ok | notFound | error
deriving DecidableEq, Repr

/-- The outcomes of R160. -/
inductive CallOutcome where
  | ok | notFound | error | done
deriving DecidableEq, Repr

/-- One entry of the transport trace (R161). -/
structure Call where
  request : Request
  outcome : CallOutcome
deriving DecidableEq, Repr

/-- Where the command that waits for the transport goes on: which call of which command is in flight. -/
inductive Resume where
  /-- SESSION_OPEN's T_OPEN (R170). -/
  | opening
  /-- SESSION_CLOSE's T_CLOSE (R172). -/
  | closing
  /-- APPLY_PRESET's T_FEATURE (R175). -/
  | preset
  /-- Call index of APPLY_CUSTOM (R180): 0 begin, 1 to 8 chunks, 9 commit. -/
  | upload (index : Fin 10)
  /-- The abort's T_CLOSE after the failure of call index (R164). -/
  | aborting (index : Fin 10) (dirty : Bool)
deriving DecidableEq, Repr

/-- The one request outstanding at the transport (R35, R161). -/
structure InFlight where
  request : Request
  resume : Resume
deriving DecidableEq, Repr

/-- IMG_BUF as a list of written bytes by address (R50). -/
abbrev Memory := List Host.Cell

/-- What an address of IMG_BUF that nothing has written holds: no value (R26, R38). Reading it is no fault; the read
returns a free value (R141, Machine/Ops.lean). -/
def Memory.unlisted : Option Byte := none

/-- The canonical form: addresses strictly rising, all below 512 (R50). Every listed cell holds a value and an
unlisted one holds none, so no listed cell equals what an unlisted address reads as. -/
abbrev Memory.wf (m : Memory) : Prop :=
  m.Pairwise (fun c d => c.1 < d.1) ∧ ∀ c ∈ m, c.1 < 512 ∧ some c.2 ≠ Memory.unlisted

/-- The state of the block. The first ten fields are the registers of R23, in its order. -/
structure State where
  /-- SESSION (R24). -/
  session : Session
  /-- DEV_INCONSISTENT (R30). -/
  devInconsistent : Bool
  /-- LAST_ERR (R29). -/
  lastErr : RspCode
  /-- LAST_FIELD (R29). -/
  lastField : FieldCode
  /-- IMG_LEN, 0 to 513 (R25); 514 to 1023 are never written (U12). -/
  imgLen : Fin 514
  /-- IMG_BUF (R26). -/
  imgBuf : Memory
  /-- FRAME_REG (R27). -/
  frameReg : Frame
  /-- SEQ_STEP: none is idle (R33). -/
  seqStep : Option (Fin 10)
  /-- BUSY (R32). -/
  busy : Bool
  /-- SLOT_ASSIGNED, bit i for slot i+1 (R28): read-only. -/
  slotAssigned : BitVec 128
  /-- The request in flight to the transport (R35). -/
  inFlight : Option InFlight
  /-- Words offered on the command port and not yet taken, oldest first (R83): an input. -/
  port : List Word
  /-- The transport's answers not yet taken, oldest first (R162): an input (log entry 1). -/
  answers : List Answer
  /-- The command words accepted, oldest first (R15). -/
  commands : List Word
  /-- The responses sent, oldest first (R15, R193). -/
  responses : List Response
  /-- The transport trace, oldest first (R161, R193). -/
  trace : List Call
  /-- The model's own: how many never-written bytes have been read, the argument of Config.imgDraw (R141). -/
  draws : Nat
deriving DecidableEq, Repr

/-- Reasons to stop with a fault. The block has none: every error of R200 is a response and the run goes on (R208), no
address can be out of range (R55, R140), and the values U12 asks a fault for cannot be written in these types. -/
inductive Fault where
deriving DecidableEq, Repr

/-- Reasons to refuse an instruction. -/
inductive Refusal where
  /-- No meaning yet. Raised by an arm of exec alone, and none raises it. Safe: the machine stops. -/
  | notModelled (mnemonic : String)
deriving DecidableEq, Repr

/-- What a meaning answers. -/
abbrev Result := Host.Outcome State Fault Refusal

/-- FRAME_REG after reset: unspecified and unobservable (R38, U10). DESIGN CHOICE: eight zero bytes, log entry 4. -/
def Frame.reset : Frame := ⟨0, 0, 0, 0, 0, 0, 0, 0⟩

/-- The SLOT_ASSIGNED mask of a layout: bit i tells that slot i+1 has a name (R8, R28). -/
def layoutMask (layout : Fin 128 → Option KeyName) : BitVec 128 := BitVec.ofFnLE fun i => (layout i).isSome

/-- The block right after reset (R38, R230): nothing offered, nothing answered, nothing observed (log entries 1, 2, 9). -/
def State.reset : State where
  session := .unopened
  devInconsistent := false
  lastErr := .ok
  lastField := .noField
  imgLen := 0
  imgBuf := []
  frameReg := Frame.reset
  seqStep := none
  busy := false
  slotAssigned := layoutMask Config.keyLayout
  inFlight := none
  port := []
  answers := []
  commands := []
  responses := []
  trace := []
  draws := 0

end Sys2Proof.Machine
end

