-- ==== Sys2Proof/Machine/Flags.lean ====
section
/-! DEFINITION. The codes of the enumerated registers (R24, R74, R81), the STATUS word (R31) and the data word of a
TransportError (R203). The block has no condition flags (R34). -/

namespace Sys2Proof.Machine

/-- The value of SESSION (R24). -/
def Session.code : Session → BitVec 3
  | .unopened => 0
  | .opened => 1
  | .preset => 2
  | .uploading => 3
  | .committed => 4
  | .failed => 5

/-- The value of RSP_CODE (R81). -/
def RspCode.code : RspCode → BitVec 4
  | .ok => 0
  | .validationError => 1
  | .lengthError => 2
  | .deviceNotFound => 3
  | .transportError => 4
  | .illegalCommand => 5
  | .stateError => 6

/-- The value of RSP_FIELD (R74, R82). -/
def fieldBits : FieldCode → BitVec 4
  | .noField => 0
  | .kind => 1
  | .mode => 2
  | .param1 => 3
  | .param2 => 4
  | .color => 5
  | .flag => 6
  | .slot => 7
  | .present => 8

/-- The 10 bits of IMG_LEN (R25). -/
def State.imgLenBits (s : State) : BitVec 10 := BitVec.ofNat 10 s.imgLen.val

/-- The sessions in which the block owns the transport handle (R35). -/
def Session.holdsHandle : Session → Bool
  | .unopened => false
  | .opened => true
  | .preset => true
  | .uploading => true
  | .committed => true
  | .failed => false

/-- STATUS (R31): SESSION [2:0], DEV_INCONSISTENT [3], LAST_ERR [7:4], LAST_FIELD [11:8], IMG_LEN [21:12], zero above. -/
def statusWord (s : State) : Word :=
  s.session.code.setWidth 64 ||| (BitVec.ofBool s.devInconsistent).setWidth 64 <<< 3 |||
  s.lastErr.code.setWidth 64 <<< 4 ||| (fieldBits s.lastField).setWidth 64 <<< 8 ||| s.imgLenBits.setWidth 64 <<< 12

/-- The data of a TransportError: the failed call's index in lane 0, DEV_INCONSISTENT in lane 1 (R203). -/
def transportErrorData (index : Nat) (dev : Bool) : Word :=
  BitVec.ofNat 64 index ||| (BitVec.ofBool dev).setWidth 64 <<< 8

end Sys2Proof.Machine
end

