-- ==== Sys2Proof/Machine/Operands.lean ====
section
/-! DEFINITION. Operand checks in the machine's order (R106, R133, R111), the checksum adder and the frame (R100, R101),
the color record (R110) and the two address muxes of IMG_BUF (R51, R52). -/

namespace Sys2Proof.Machine

/-- The first operand that fails its check, with its field, if one does. -/
abbrev Check := Option (FieldCode × Byte)

/-- The recognised modes (R74, R106, C2, C6). -/
def legalModes : List Byte := [1, 2, 4, 5, 6, 7, 8, 9, 10, 11, 12, 13, 0x34]

/-- The recognised kinds (R74, R106). -/
def legalKinds : List Byte := [0x08, 0x92, 0x12]

/-- validate_frame: param1, param2, flag, mode, kind, color, the first failure alone (R106). -/
def validateFrame (kind mode param1 param2 color flag : Byte) : Check :=
  if 10 < param1.toNat then some (.param1, param1)
  else if 51 < param2.toNat then some (.param2, param2)
  else if 1 < flag.toNat then some (.flag, flag)
  else if mode ∉ legalModes then some (.mode, mode)
  else if kind ∉ legalKinds then some (.kind, kind)
  else if 7 < color.toNat then some (.color, color)
  else none

/-- The check of present alone (R111). -/
def validatePresent (present : Byte) : Check :=
  if 1 < present.toNat then some (.present, present) else none

/-- Slot, then present (R133). -/
def validateSlot (slot present : Byte) : Check :=
  if slot.toNat < 1 ∨ 128 < slot.toNat then some (.slot, slot) else validatePresent present

/-- The checksum: the exact sum taken from 0xFF, modulo 256, the remainder never negative (R11, R100). -/
def checksum (kind mode param1 param2 color flag : Byte) : Byte :=
  BitVec.ofInt 8 ((0xFF - ((kind.toNat + mode.toNat + param1.toNat + param2.toNat + color.toNat + flag.toNat : Nat) : Int)) % 256)

/-- The frame of six fields (R101). Byte 1 is always zero. -/
def frame (kind mode param1 param2 color flag : Byte) : Frame :=
  ⟨kind, 0, mode, param1, param2, color, flag, checksum kind mode param1 param2 color flag⟩

/-- A frame in a response: frame byte i in lane i (R54, R102). -/
def Frame.toWord (f : Frame) : Word :=
  pack f.checksum f.flag f.color f.param2 f.param1 f.mode f.byte1 f.kind

/-- The color record (R110): [0, r, g, b] where a color is given, else four zeros, r, g and b ignored (D49). -/
def colorRecord (r g b present : Byte) : List Byte :=
  if present = 1 then [0, r, g, b] else [0, 0, 0, 0]

/-- Bytes 0 to 3 of a record in lanes 0 to 3 of a word (R111). -/
def recordWord (c : List Byte) : Word :=
  pack 0 0 0 0 (c.getD 3 0) (c.getD 2 0) (c.getD 1 0) (c.getD 0 0)

/-- The byte address of byte 0 of a slot's record: the slot address mux (R51), bits [6:0] of slot-1 above two zero bits,
that is 4*(slot-1). -/
def recordAddr (slot : Byte) : Nat := 4 * ((slot - 1).toNat % 128)

/-- The first byte address of chunk c (R52). -/
def chunkAddr (c : Nat) : Nat := 64 * c

/-- The frame of APPLY_CUSTOM's step 1: CustomConfig, static, 8, 0, black, 0 (R180, R181). -/
def beginFrame : Frame := frame Kind.customConfig.toByte Mode.static.toByte 8 0 Color.black.toByte 0

/-- The frame of APPLY_CUSTOM's step 3: Preset, custom, 5, 50, green, 1 (R180, R181). -/
def commitFrame : Frame := frame Kind.preset.toByte Mode.custom.toByte 5 50 Color.green.toByte 1

/-- The frame of APPLY_PRESET: kind Preset, flag 0 (R175, R176). -/
def presetFrame (mode speed brightness color : Byte) : Frame :=
  frame Kind.preset.toByte mode speed brightness color 0

end Sys2Proof.Machine
end

