-- ==== Sys2Proof/Machine/Ops.lean ====
section
/-! DEFINITION. The operations every meaning is built from: bytes of IMG_BUF (R50, R141), the response (R80), raising an
error (R12, R208), and taking a command from the port (R83). -/

namespace Sys2Proof.Machine

/-! ### IMG_BUF -/

/-- The byte last written at an address, or what an unlisted address holds. -/
def Memory.read : Memory → Nat → Option Byte
  | [], _ => Memory.unlisted
  | c :: m, a => if c.1 = a then some c.2 else Memory.read m a

/-- Write one byte, keeping the addresses strictly rising. -/
def Memory.write : Memory → Nat → Byte → Memory
  | [], a, v => [(a, v)]
  | c :: m, a, v =>
    if a < c.1 then (a, v) :: c :: m
    else if a = c.1 then (a, v) :: m
    else c :: Memory.write m a v

/-- MemWrite(a, n, s) on the buffer: IMG_BUF[a+j] <- s[j] in rising j (R50). -/
def Memory.writeBytes : Memory → Nat → List Byte → Memory
  | m, _, [] => m
  | m, a, v :: vs => Memory.writeBytes (m.write a v) (a + 1) vs

/-- MemWrite (R50). -/
def State.memWrite (a : Nat) (bytes : List Byte) (s : State) : State :=
  { s with imgBuf := s.imgBuf.writeBytes a bytes }

/-- Read one byte. A byte nothing has written since reset is a free value, fresh on every read (R141). -/
def State.readByte (a : Nat) (s : State) : Byte × State :=
  match s.imgBuf.read a with
  | some v => (v, s)
  | none => (Config.imgDraw s.draws, { s with draws := s.draws + 1 })

/-- MemRead(a, n), the bytes in rising address (R50). -/
def State.memRead : Nat → Nat → State → List Byte × State
  | _, 0, s => ([], s)
  | a, n + 1, s =>
    let b := s.readByte a
    let rest := State.memRead (a + 1) n b.2
    (b.1 :: rest.1, rest.2)

/-! ### Responses -/

/-- Send the response and drop BUSY (R80, steps 1 and 3): all of respond for READ_STATUS. -/
def State.send (r : Response) (s : State) : State :=
  { s with responses := s.responses ++ [r], busy := false }

/-- respond(code, field, data) of every command but READ_STATUS: LAST_ERR and LAST_FIELD take code and field at the same
moment (R29, R80). -/
def State.respond (code : RspCode) (field : FieldCode) (data : Word) (s : State) : State :=
  { s.send ⟨code, field, data⟩ with lastErr := code, lastField := field }

/-- The OK response (R80, R81). -/
def State.respondOk (data : Word) (s : State) : State := s.respond .ok .noField data

/-- Taking an error: raise E(field, data) is respond(E, field, data) and nothing else (R12, R204, R208). The run goes on
with the next command word: there is no handler and no return (R208, R209). -/
def State.raise (code : RspCode) (field : FieldCode) (data : Word) (s : State) : State := s.respond code field data

/-- IllegalCommand (R76, R200). -/
def State.raiseIllegal (s : State) : State := s.raise .illegalCommand .noField 0

/-- ValidationError: the field's code, and the offending value in lane 0 (R106, R200). -/
def State.raiseValidation (bad : FieldCode × Byte) (s : State) : State :=
  s.raise .validationError bad.1 (bad.2.setWidth 64)

/-- LengthError carries IMG_LEN (R202). -/
def State.raiseLength (s : State) : State := s.raise .lengthError .noField (s.imgLenBits.setWidth 64)

/-- StateError (R200). -/
def State.raiseState (s : State) : State := s.raise .stateError .noField 0

/-! ### The command port -/

/-- The port takes a word: BUSY rises, and the word joins the accepted commands (R32, R83). -/
def State.accept (w : Word) (rest : List Word) (s : State) : State :=
  { s with port := rest, busy := true, commands := s.commands ++ [w] }

/-- The host offers further words on the port (R83, R192). -/
def State.offer (ws : List Word) (s : State) : State := { s with port := s.port ++ ws }

/-- The transport side supplies further answers (R160, R162). -/
def State.supply (as : List Answer) (s : State) : State := { s with answers := s.answers ++ as }

/-- The state in which the next step takes word w from the port: w stands first there in place of the word that did, and
no command is in progress. -/
def State.presentWord (w : Word) (s : State) : State :=
  { s with port := w :: s.port.tail, busy := false, inFlight := none }

end Sys2Proof.Machine
end

