-- ==== Sys2Proof/Machine/FrameEncoder.lean ====
section
/-! DEFINITION. The frame checksum encoder's two commands: ENCODE_FRAME (R102) and ENCODE_COLOR (R111). -/

namespace Sys2Proof.Machine

/-- ENCODE_FRAME: build one frame, keep it in FRAME_REG and answer it (R102). -/
def execEncodeFrame (kind mode param1 param2 color flag : Byte) (s : State) : Result :=
  match validateFrame kind mode param1 param2 color flag with
  | some bad => .next (s.raiseValidation bad)
  | none =>
    let f := frame kind mode param1 param2 color flag
    .next ({ s with frameReg := f }.respondOk f.toWord)

/-- ENCODE_COLOR: build one color record and answer it (R111). -/
def execEncodeColor (r g b present : Byte) (s : State) : Result :=
  match validatePresent present with
  | some bad => .next (s.raiseValidation bad)
  | none => .next (s.respondOk (recordWord (colorRecord r g b present)))

end Sys2Proof.Machine
end

