-- ==== Sys2Proof/Machine/ImagePacker.lean ====
section
/-! DEFINITION. The RGB image packer's five commands (R130 to R141). -/

namespace Sys2Proof.Machine

/-- SLOT_ASSIGNED(s-1) for slot s (R28, R130). -/
def State.slotIsAssigned (slot : Byte) (s : State) : Bool := s.slotAssigned.getLsbD (slot.toNat - 1)

/-- write_slot: the record goes to the slot's four bytes, or is dropped where the layout leaves the slot unassigned
(R130). -/
def State.writeSlot (slot : Byte) (record : List Byte) (s : State) : State :=
  if s.slotIsAssigned slot then s.memWrite (recordAddr slot) record else s

/-- IMG_CLEAR: all of IMG_BUF zero, the image complete (R131). -/
def execImgClear (s : State) : Result :=
  .next ({ s.memWrite 0 (List.replicate 512 0) with imgLen := 512 }.respondOk 0)

/-- IMG_WRITE_SLOT: one record at one slot; IMG_LEN stays (R133, R135). -/
def execImgWriteSlot (slot r g b present : Byte) (s : State) : Result :=
  match validateSlot slot present with
  | some bad => .next (s.raiseValidation bad)
  | none => .next ((s.writeSlot slot (colorRecord r g b present)).respondOk 0)

/-- IMG_LOAD_BEGIN: IMG_LEN 0, IMG_BUF kept (R136). -/
def execImgLoadBegin (s : State) : Result := .next ({ s with imgLen := 0 }.respondOk 0)

/-- The raw load of one byte: at IMG_LEN while that is below 512, else dropped and IMG_LEN is 513 (R137). -/
def State.loadByte (data : Byte) (s : State) : State :=
  if h : s.imgLen.val < 512 then { s.memWrite s.imgLen.val [data] with imgLen := ⟨s.imgLen.val + 1, by omega⟩ }
  else { s with imgLen := 513 }

/-- IMG_LOAD_BYTE: append one byte to a raw load (R137). -/
def execImgLoadByte (data : Byte) (s : State) : Result := .next ((s.loadByte data).respondOk 0)

/-- IMG_READ_BYTE: answer one byte of the image; one never written is a free value (R140, R141). -/
def execImgReadByte (addr : Addr) (s : State) : Result :=
  let b := s.readByte addr.toNat
  .next (b.2.respondOk (b.1.setWidth 64))

end Sys2Proof.Machine
end

