-- ==== Sys2Proof/Machine/Transport.lean ====
section
/-! DEFINITION. The transport port and the serializer's sequences over it: requests and outcomes (R160 to R162), the abort
procedure (R164), and what each command does with the outcome of each of its calls (R170, R172, R175, R180). A command
issues a request and goes on when its answer has come; while none has, the request stays in flight and BUSY stays 1. -/

namespace Sys2Proof.Machine

/-- The outcome a request takes from an answer (R160): T_OPEN has three, T_FEATURE and T_WRITE have OK and ERROR, T_CLOSE
has DONE, any failure folded into it. DESIGN CHOICE, safe: an answer that is no outcome of a feature or write request
counts as ERROR (log entry 1). -/
def Request.outcome : Request → Answer → CallOutcome
  | .openDevice _, .ok => .ok
  | .openDevice _, .notFound => .notFound
  | .openDevice _, .error => .error
  | .feature _, .ok => .ok
  | .feature _, .notFound => .error
  | .feature _, .error => .error
  | .write _, .ok => .ok
  | .write _, .notFound => .error
  | .write _, .error => .error
  | .close, _ => .done

/-- Issue one request and wait for it (R161). -/
def State.issue (request : Request) (resume : Resume) (s : State) : State :=
  { s with inFlight := some ⟨request, resume⟩ }

/-- Issue a feature report with the frame just written to FRAME_REG (R27). -/
def State.issueFrame (f : Frame) (step : Fin 10) (resume : Resume) (s : State) : State :=
  { s with frameReg := f, seqStep := some step }.issue (.feature f) resume

/-- abort(i, dirty) begins by releasing the handle (R164). -/
def State.abort (index : Fin 10) (dirty : Bool) (s : State) : State := s.issue .close (.aborting index dirty)

/-- abort(i, dirty) after its T_CLOSE (R164). -/
def State.finishAbort (index : Fin 10) (dirty : Bool) (s : State) : State :=
  { s with session := .failed, devInconsistent := s.devInconsistent || dirty, seqStep := none }.raise
    .transportError .noField (transportErrorData index (s.devInconsistent || dirty))

/-- SESSION_OPEN with the outcome of T_OPEN (R170). -/
def State.afterOpen (o : CallOutcome) (s : State) : State :=
  match o with
  | .notFound => s.raise .deviceNotFound .noField 0
  | .error => s.raise .transportError .noField (transportErrorData 0 s.devInconsistent)
  | .ok => { s with session := .opened }.respondOk 0
  | .done => { s with session := .opened }.respondOk 0

/-- SESSION_CLOSE once the handle is released or was none to release (R172). -/
def State.finishClose (s : State) : State := { s with session := .unopened }.respondOk 0

/-- APPLY_PRESET with the outcome of its T_FEATURE (R175). -/
def State.afterPreset (o : CallOutcome) (s : State) : State :=
  if o = .error then s.abort 0 false
  else { s with seqStep := none, session := .preset }.respondOk 0

/-- Issue T_WRITE of chunk c, read from IMG_BUF at this call (R180, D48). -/
def State.issueChunk (c : Nat) (step : Fin 10) (s : State) : State :=
  let chunk := { s with seqStep := some step }.memRead (chunkAddr c) 64
  chunk.2.issue (.write chunk.1) (.upload step)

/-- Issue call index of APPLY_CUSTOM: 0 the begin frame, 1 + c chunk c, 9 the commit frame (R33, R180). -/
def State.uploadCall (index : Fin 10) (s : State) : State :=
  if index = 0 then s.issueFrame beginFrame 0 (.upload 0)
  else if index = 9 then s.issueFrame commitFrame 9 (.upload 9)
  else s.issueChunk (index.val - 1) index

/-- APPLY_CUSTOM's end once call 9 has returned OK (R180, R183). -/
def State.commit (s : State) : State :=
  { s with seqStep := none, session := .committed, devInconsistent := false }.respondOk 0

/-- APPLY_CUSTOM with the outcome of call index (R180, R182, R184). -/
def State.afterUpload (index : Fin 10) (o : CallOutcome) (s : State) : State :=
  if o = .error then s.abort index (index != 0)
  else if index = 9 then s.commit
  else if index = 0 then { s with session := .uploading }.uploadCall 1
  else s.uploadCall (index + 1)

/-- The command goes on with the outcome of its call. -/
def State.goOn (resume : Resume) (o : CallOutcome) (s : State) : State :=
  match resume with
  | .opening => s.afterOpen o
  | .closing => s.finishClose
  | .preset => s.afterPreset o
  | .upload index => s.afterUpload index o
  | .aborting index dirty => s.finishAbort index dirty

/-- The transport answers the request in flight: the pair joins the trace (R161) and the command goes on. -/
def State.takeAnswer (f : InFlight) (a : Answer) (s : State) : State :=
  let o := f.request.outcome a
  let t : State := { s with inFlight := none, trace := s.trace ++ [⟨f.request, o⟩] }
  t.goOn f.resume o

/-- Give the answers, in order, to the calls of the command in progress until it waits for none; the rest stay for later
calls. -/
def State.takeAnswers : List Answer → State → State
  | [], s => { s with answers := [] }
  | a :: as, s =>
    match s.inFlight with
    | none => { s with answers := a :: as }
    | some f => State.takeAnswers as (s.takeAnswer f a)

/-- Run the command in progress as far as the answers at hand carry it. With none, nothing changes: the call waits (R161,
R216, U5). -/
def State.runCalls (s : State) : State := s.takeAnswers s.answers

/-- What the block does before an instruction runs: with BUSY the port takes nothing and the command in progress goes on
(R83); with nothing offered the block waits (R230); an illegal word is taken and answered (R76, R78); a legal one is taken
and its instruction is to be run on the state given. -/
def State.fetch (s : State) : State × Option Instr :=
  if s.busy then (s.runCalls, none)
  else match s.port with
    | [] => (s, none)
    | w :: rest =>
      match decode w with
      | .error _ => ((s.accept w rest).raiseIllegal, none)
      | .ok i => (s.accept w rest, some i)

end Sys2Proof.Machine
end

