-- ==== Sys2Proof/Machine/Serializer.lean ====
section
/-! DEFINITION. The serializer's five commands (R170 to R186). Each runs as far as the transport's answers carry it
(Machine/Transport.lean). -/

namespace Sys2Proof.Machine

/-- SESSION_OPEN: from Unopened or Failed, ask the transport to open the device (R170). -/
def execSessionOpen (s : State) : Result :=
  if s.session = .unopened ∨ s.session = .failed then .next (s.issue (.openDevice Config.device) .opening).runCalls
  else .next s.raiseState

/-- SESSION_CLOSE: release the handle where the session holds one (R172). -/
def execSessionClose (s : State) : Result :=
  match s.session with
  | .unopened => .next s.raiseState
  | .opened => .next (s.issue .close .closing).runCalls
  | .preset => .next (s.issue .close .closing).runCalls
  | .committed => .next (s.issue .close .closing).runCalls
  | .uploading => .next s.finishClose
  | .failed => .next s.finishClose

/-- APPLY_PRESET: send one preset frame (R175). -/
def execApplyPreset (mode speed brightness color : Byte) (s : State) : Result :=
  match validateFrame Kind.preset.toByte mode speed brightness color 0 with
  | some bad => .next (s.raiseValidation bad)
  | none =>
    if s.session = .opened then .next (s.issueFrame (presetFrame mode speed brightness color) 0 .preset).runCalls
    else .next s.raiseState

/-- APPLY_CUSTOM: upload the image and activate it (R180). -/
def execApplyCustom (s : State) : Result :=
  if s.imgLen ≠ 512 then .next s.raiseLength
  else if s.session = .opened then .next (s.uploadCall 0).runCalls
  else .next s.raiseState

/-- READ_STATUS: answer STATUS; LAST_ERR and LAST_FIELD stay (R29, R186). -/
def execReadStatus (s : State) : Result := .next (s.send ⟨.ok, .noField, statusWord s⟩)

end Sys2Proof.Machine
end

