-- ==== Sys2Proof/Machine/Dispatch.lean ====
section
/-! DEFINITION. exec: the meaning of each instruction, one arm per row of the opcode table (R72). -/

namespace Sys2Proof.Machine

def exec (i : Instr) (s : State) : Host.Outcome State Fault Refusal :=
  match i with
  | .encodeFrame kind mode param1 param2 color flag => Sys2Proof.Machine.execEncodeFrame kind mode param1 param2 color flag s
  | .encodeColor r g b present => Sys2Proof.Machine.execEncodeColor r g b present s
  | .imgClear => Sys2Proof.Machine.execImgClear s
  | .imgWriteSlot slot r g b present => Sys2Proof.Machine.execImgWriteSlot slot r g b present s
  | .imgLoadBegin => Sys2Proof.Machine.execImgLoadBegin s
  | .imgLoadByte data => Sys2Proof.Machine.execImgLoadByte data s
  | .imgReadByte addr => Sys2Proof.Machine.execImgReadByte addr s
  | .sessionOpen => Sys2Proof.Machine.execSessionOpen s
  | .sessionClose => Sys2Proof.Machine.execSessionClose s
  | .applyPreset mode speed brightness color => Sys2Proof.Machine.execApplyPreset mode speed brightness color s
  | .applyCustom => Sys2Proof.Machine.execApplyCustom s
  | .readStatus => Sys2Proof.Machine.execReadStatus s

end Sys2Proof.Machine
end

