-- ==== Sys2Proof/Machine/Step.lean ====
section
/-! DEFINITION. One step of the block: take the next command word, or let the command in progress go on (R59, R83). -/

namespace Sys2Proof.Machine

/-- One step. A fetched instruction runs on the state that has accepted its word; otherwise the state is what fetching
left. -/
def step (s : State) : Host.Outcome State Fault Refusal :=
  match s.fetch with
  | (t, some i) => exec i t
  | (t, none) => .next t

/-- The state s with a table word offered first on the port and no command in progress, so that the next step accepts
and runs it (log entry 2). -/
def State.withFetchWord (s : State) (nbits w : Nat) : State := s.presentWord (BitVec.ofNat 64 (w % 2 ^ nbits))

end Sys2Proof.Machine
end

