-- ==== Sys2Proof/Machine/HostSide.lean ====
section
/-! DEFINITION. What the host does on its own side of the port (R84, R85, R150): assembler forms, pseudo-instructions and
the rule for stopping and closing. The block never sees a pseudo-instruction (R85). -/

namespace Sys2Proof.Machine

/-- An assembler line (R84), its operands read as numbers. -/
inductive Asm where
  | encodeFrame (kind mode p1 p2 color flag : Byte)
  | encodeColor (r g b : Byte)
  | encodeColorNone
  | imgClear
  | imgWriteSlot (slot r g b : Byte)
  | imgWriteSlotNone (slot : Byte)
  | imgLoadBegin
  | imgLoadByte (data : Byte)
  | imgReadByte (addr : Addr)
  | sessionOpen
  | sessionClose
  | applyCustom
  | readStatus
  | applyPreset (mode speed brightness color : Byte)
  | word64 (w : Word)
deriving DecidableEq, Repr

/-- The word of an assembler line (R84). -/
def Asm.word : Asm → Word
  | .encodeFrame kind mode p1 p2 color flag => encode (.encodeFrame kind mode p1 p2 color flag)
  | .encodeColor r g b => encode (.encodeColor r g b 1)
  | .encodeColorNone => encode (.encodeColor 0 0 0 0)
  | .imgClear => encode .imgClear
  | .imgWriteSlot slot r g b => encode (.imgWriteSlot slot r g b 1)
  | .imgWriteSlotNone slot => encode (.imgWriteSlot slot 0 0 0 0)
  | .imgLoadBegin => encode .imgLoadBegin
  | .imgLoadByte data => encode (.imgLoadByte data)
  | .imgReadByte addr => encode (.imgReadByte addr)
  | .sessionOpen => encode .sessionOpen
  | .sessionClose => encode .sessionClose
  | .applyCustom => encode .applyCustom
  | .readStatus => encode .readStatus
  | .applyPreset mode speed brightness color => encode (.applyPreset mode speed brightness color)
  | .word64 w => w

/-! ### Reading a line of text (R84; what the spec leaves open of it: log entry 14) -/

/-- The names of an enumeration with their values (R75). -/
abbrev Names := List (String × Byte)

/-- The names of kinds (R75). -/
def kindNames : Names :=
  [("Preset", Kind.preset.toByte), ("ReadConfig", Kind.readConfig.toByte), ("CustomConfig", Kind.customConfig.toByte)]

/-- The names of modes (R75); wave is none: it must never be emitted (C2). -/
def modeNames : Names :=
  [("static", Mode.static.toByte), ("breathing", Mode.breathing.toByte),
   ("fade_on_keypress", Mode.fadeOnKeypress.toByte), ("marquee", Mode.marquee.toByte), ("ripple", Mode.ripple.toByte),
   ("flash_on_keypress", Mode.flashOnKeypress.toByte), ("neon", Mode.neon.toByte),
   ("rainbow_marquee", Mode.rainbowMarquee.toByte), ("raindrop", Mode.raindrop.toByte),
   ("circle_marquee", Mode.circleMarquee.toByte), ("hedge", Mode.hedge.toByte), ("rotate", Mode.rotate.toByte),
   ("custom", Mode.custom.toByte)]

/-- The names of colors (R75). -/
def colorNames : Names :=
  [("black", Color.black.toByte), ("red", Color.red.toByte), ("green", Color.green.toByte),
   ("yellow", Color.yellow.toByte), ("blue", Color.blue.toByte), ("orange", Color.orange.toByte),
   ("purple", Color.purple.toByte), ("white", Color.white.toByte)]

/-- A text without the blanks before and after it. -/
def trimText (t : List Char) : List Char := ((t.dropWhile (· == ' ')).reverse.dropWhile (· == ' ')).reverse

/-- The texts between the commas. -/
def operandTexts : List Char → List (List Char)
  | [] => [[]]
  | c :: cs =>
    if c = ',' then [] :: operandTexts cs
    else match operandTexts cs with
      | [] => [[c]]
      | t :: ts => (c :: t) :: ts

/-- The value of a digit, as hexadecimal has them. -/
def digitValue? (c : Char) : Option Nat := "0123456789abcdef".toList.findIdx? (· == c.toLower)

/-- The digits of a number in a base, most significant first. -/
def digits? (base : Nat) (t : List Char) : Option Nat :=
  if t.isEmpty then none
  else t.foldlM (fun n c => (digitValue? c).bind fun d => if d < base then some (base * n + d) else none) 0

/-- A decimal or 0x hexadecimal number (R84). -/
def number? : List Char → Option Nat
  | '0' :: 'x' :: t => digits? 16 t
  | t => digits? 10 t

/-- An operand of w bits. -/
def operand? (w : Nat) (t : List Char) : Option (BitVec w) :=
  (number? t).bind fun n => if n < 2 ^ w then some (BitVec.ofNat w n) else none

/-- An operand of an enumerated field: a name, or a number (R84). -/
def named? (names : Names) (t : List Char) : Option Byte :=
  ((names.find? fun n => n.1.toList == t).map Prod.snd).or (operand? 8 t)

/-- The line a mnemonic and its operands stand for (R84). -/
def Asm.ofParts (mnemonic : String) (operands : List (List Char)) : Option Asm :=
  match mnemonic, operands with
  | "ENCODE_FRAME", [kind, mode, p1, p2, color, flag] => do
    return .encodeFrame (← named? kindNames kind) (← named? modeNames mode) (← operand? 8 p1) (← operand? 8 p2)
      (← named? colorNames color) (← operand? 8 flag)
  | "ENCODE_COLOR", [r, g, b] => do return .encodeColor (← operand? 8 r) (← operand? 8 g) (← operand? 8 b)
  | "ENCODE_COLOR", [c] => if c = "none".toList then some .encodeColorNone else none
  | "IMG_CLEAR", [] => some .imgClear
  | "IMG_WRITE_SLOT", [slot, r, g, b] => do
    return .imgWriteSlot (← operand? 8 slot) (← operand? 8 r) (← operand? 8 g) (← operand? 8 b)
  | "IMG_WRITE_SLOT", [slot, c] =>
    if c = "none".toList then (operand? 8 slot).map .imgWriteSlotNone else none
  | "IMG_LOAD_BEGIN", [] => some .imgLoadBegin
  | "IMG_LOAD_BYTE", [data] => (operand? 8 data).map .imgLoadByte
  | "IMG_READ_BYTE", [addr] => (operand? 9 addr).map .imgReadByte
  | "SESSION_OPEN", [] => some .sessionOpen
  | "SESSION_CLOSE", [] => some .sessionClose
  | "APPLY_PRESET", [mode, speed, brightness, color] => do
    return .applyPreset (← named? modeNames mode) (← operand? 8 speed) (← operand? 8 brightness)
      (← named? colorNames color)
  | "APPLY_CUSTOM", [] => some .applyCustom
  | "READ_STATUS", [] => some .readStatus
  | ".word64", ['0' :: 'x' :: digits] =>
    if digits.length = 16 then (digits? 16 digits).map fun n => .word64 (BitVec.ofNat 64 n) else none
  | _, _ => none

/-- Read one line of assembler text (R84): the mnemonic, a blank, the operands between commas. -/
def Asm.parse (line : String) : Option Asm :=
  let text := trimText line.toList
  let rest := trimText (text.dropWhile (· != ' '))
  Asm.ofParts (String.ofList (text.takeWhile (· != ' '))) (if rest.isEmpty then [] else (operandTexts rest).map trimText)

/-! ### Pseudo-instructions (R85, R150) -/

/-- ColorRGB (R16). -/
structure ColorRGB where
  r : Byte
  g : Byte
  b : Byte
deriving DecidableEq, Repr

/-- A finite map from key names to colors (R150): the first entry of a name counts. -/
abbrev ColorMap := List (KeyName × ColorRGB)

/-- The color PACK_IMAGE gives the slot of index i, if its name is in the map (R150). -/
def slotColor (layout : Fin 128 → Option KeyName) (m : ColorMap) (i : Fin 128) : Option ColorRGB :=
  (layout i).bind fun n => List.lookup n m

/-- The 1-based slot number of index i (R8). -/
def slotNumber (i : Fin 128) : Byte := BitVec.ofNat 8 (i.val + 1)

/-- PACK_IMAGE m (R150): clear, then one write per slot whose name the map colors, in rising slot order. -/
def packImage (layout : Fin 128 → Option KeyName) (m : ColorMap) : List Instr :=
  .imgClear :: (List.finRange 128).filterMap fun i =>
    (slotColor layout m i).map fun c => .imgWriteSlot (slotNumber i) c.r c.g c.b 1

/-- LOAD_IMAGE s (R85). -/
def loadImage (bytes : List Byte) : List Instr := .imgLoadBegin :: bytes.map .imgLoadByte

/-- PRESET_SESSION (R85). -/
def presetSession (mode speed brightness color : Byte) : List Instr :=
  [.sessionOpen, .applyPreset mode speed brightness color, .sessionClose]

/-- CUSTOM_SESSION (R85). -/
def customSession : List Instr := [.sessionOpen, .applyCustom, .sessionClose]

/-- What the host issues next after a response, of the commands still to come: after one that is not OK it stops, and
closes the session if that is Opened or Preset (R85). -/
def hostNext (rest : List Instr) (code : RspCode) (session : Session) : List Instr :=
  if code = .ok then rest
  else if session = .opened ∨ session = .preset then [.sessionClose]
  else []

/-- Run commands one after another on the block: the host offers each word once the command before has been answered, and
waits where it has not (R59, R192). -/
def State.issueAll : List Instr → State → Result
  | [], s => .next s
  | i :: is, s =>
    if s.busy then .next s
    else
      match step { s with port := encode i :: s.port } with
      | .next t => State.issueAll is t
      | .fault r => .fault r
      | .refused r => .refused r

/-- Run commands with the rule for stopping and closing (R85): after a response that is not OK only what hostNext gives is
issued. -/
def State.runStopping : List Instr → State → Result
  | [], s => .next s
  | i :: is, s =>
    match State.issueAll [i] s with
    | .next t =>
      let code := (t.responses.getLast?.map Response.code).getD .ok
      if t.busy then .next t
      else if code = .ok then State.runStopping is t
      else State.issueAll (hostNext is code t.session) t
    | .fault r => .fault r
    | .refused r => .refused r

end Sys2Proof.Machine
end

