-- ==== Sys2Proof/WellFormed.lean ====
section
/-! DEFINITION. When an instruction's operands all lie in their legal sets, written from the table of R74 and R201
(field by field), independently of the order of checks the machine follows (Machine/Operands.lean, from R106). -/

namespace Sys2Proof

/-- The legal set of each operand field (R74, R201). -/
def FieldCode.allows : FieldCode → Byte → Bool
  | .noField, _ => true
  | .kind, v => [0x08#8, 0x92#8, 0x12#8].contains v
  | .mode, v => v == 1#8 || v == 2#8 || (4#8 ≤ v && v ≤ 13#8) || v == 0x34#8
  | .param1, v => v ≤ 10#8
  | .param2, v => v ≤ 51#8
  | .color, v => v ≤ 7#8
  | .flag, v => v ≤ 1#8
  | .slot, v => 1#8 ≤ v && v ≤ 128#8
  | .present, v => v ≤ 1#8

/-- The checked operands of an instruction, each under its field. Operands every byte of which is legal (r, g, b, data,
addr) have no field code and stand in no row (R74, R110). -/
def Instr.fields : Instr → List (FieldCode × Byte)
  | .encodeFrame kind mode param1 param2 color flag =>
      [(.kind, kind), (.mode, mode), (.param1, param1), (.param2, param2), (.color, color), (.flag, flag)]
  | .encodeColor _ _ _ present => [(.present, present)]
  | .imgWriteSlot slot _ _ _ present => [(.slot, slot), (.present, present)]
  | .applyPreset mode speed brightness color =>
      [(.mode, mode), (.param1, speed), (.param2, brightness), (.color, color)]
  | .imgClear => []
  | .imgLoadBegin => []
  | .imgLoadByte _ => []
  | .imgReadByte _ => []
  | .sessionOpen => []
  | .sessionClose => []
  | .applyCustom => []
  | .readStatus => []

/-- Every operand lies in its legal set (R74). -/
def Instr.wellFormed (i : Instr) : Bool := i.fields.all fun f => f.1.allows f.2

end Sys2Proof
end

