-- ==== Sys2Proof/Safety.lean ====
section
/-! DEFINITION. What claims about the block speak of: the observation of a run (R193), the host's duty to close (R192),
and the invariants every step keeps. -/

namespace Sys2Proof.Machine

/-- The final observation of a run (R193). -/
structure Observation where
  responses : List Response
  trace : List Call
  session : Session
  devInconsistent : Bool
  lastErr : RspCode
  lastField : FieldCode
  imgLen : Fin 514
  imgBuf : Memory
deriving DecidableEq, Repr

/-- What a run that has ended shows (R193). -/
def State.observation (s : State) : Observation :=
  ⟨s.responses, s.trace, s.session, s.devInconsistent, s.lastErr, s.lastField, s.imgLen, s.imgBuf⟩

/-- The run has ended: no word is offered and the last command is answered (R193). -/
def State.runEnded (s : State) : Bool := s.port.isEmpty && !s.busy

/-- The host still owes a SESSION_CLOSE (R192, R242). -/
def Session.owesClose (v : Session) : Bool := v == .opened || v == .preset || v == .committed

/-- IMG_BUF is in canonical form (R50). -/
def State.canonical (s : State) : Prop := s.imgBuf.wf

/-- The bytes that IMG_LEN counts have all been written since reset; with IMG_LEN = 512, all of IMG_BUF (R25, R36). -/
def State.imageWritten (s : State) : Prop :=
  s.imgLen.val ≤ 512 → ∀ a < s.imgLen.val, (s.imgBuf.read a).isSome = true

/-- What the registers hold while the given call is in flight (R32, R33, R35, R164, R170, R172, R175, R180, R182). -/
def State.inFlightCoherent (s : State) (f : InFlight) : Prop :=
  match f.resume with
  | .opening => f.request = .openDevice Config.device ∧ s.seqStep = none ∧ (s.session = .unopened ∨ s.session = .failed)
  | .closing => f.request = .close ∧ s.seqStep = none ∧ s.session.owesClose = true
  | .preset => f.request = .feature s.frameReg ∧ s.seqStep = some 0 ∧ s.session = .opened
  | .upload i =>
      s.imgLen = 512 ∧ s.seqStep = some i ∧ s.session = (if i = 0 then .opened else .uploading) ∧
      (if i = 0 ∨ i = 9 then f.request = .feature s.frameReg else ∃ d, f.request = .write d ∧ d.length = 64)
  | .aborting i dirty =>
      f.request = .close ∧ s.seqStep = some i ∧ s.session = (if dirty then .uploading else .opened) ∧ dirty = (i != 0)

/-- The control registers agree: BUSY is 1 exactly while a call is in flight; between commands SEQ_STEP is idle and
SESSION is not Uploading (R32, R33, R35, R37). -/
def State.coherent (s : State) : Prop :=
  match s.inFlight with
  | none => s.busy = false ∧ s.seqStep = none ∧ s.session ≠ .uploading
  | some f => s.busy = true ∧ s.inFlightCoherent f

/-- Every accepted command has exactly one response, or is the one in progress (R80, R83). -/
def State.answeredOnce (s : State) : Prop := s.commands.length = s.responses.length + s.busy.toNat

/-- The call gave the block a transport handle (R170). -/
def Call.gainsHandle (c : Call) : Bool := c == ⟨.openDevice Config.device, .ok⟩

/-- The call gave the handle back (R164, R172). -/
def Call.dropsHandle (c : Call) : Bool := c.request == .close

/-- The handles gained in the trace are those given back and the one SESSION implies (R35). -/
def State.handleBalanced (s : State) : Prop :=
  s.trace.countP Call.gainsHandle = s.trace.countP Call.dropsHandle + s.session.holdsHandle.toNat

/-- What the block may send (R101, R163, R244, R245): a feature report is a frame with the computed checksum and a
recognised mode, with flag 0 unless it is the commit frame; a chunk has 64 bytes. -/
def Request.sendable : Request → Prop
  | .openDevice d => d = Config.device
  | .feature f => f = frame f.kind f.mode f.param1 f.param2 f.color f.flag ∧ f.mode ∈ legalModes ∧
      (f.flag ≠ 0 → f = commitFrame)
  | .write d => d.length = 64
  | .close => True

/-- The outcomes a request can have (R160). -/
def Request.canEnd : Request → CallOutcome → Bool
  | .openDevice _, o => o != .done
  | .feature _, o => o == .ok || o == .error
  | .write _, o => o == .ok || o == .error
  | .close, o => o == .done

/-- Every call made, and the one in flight, is one the block may make, and each outcome one its request can have. -/
def State.sendsOnlySendable (s : State) : Prop :=
  (∀ c ∈ s.trace, c.request.sendable ∧ c.request.canEnd c.outcome = true) ∧ ∀ f, s.inFlight = some f → f.request.sendable

/-- The 64 bytes of chunk c as IMG_BUF holds them (R52, R60); of a byte never written, 0 stands in. -/
def State.imageChunk (s : State) (c : Nat) : List Byte := (List.range 64).map fun j => (s.imgBuf.read (64 * c + j)).getD 0

/-- The 10 requests of a complete upload, in order (the table of R185). -/
def State.uploadRequests (s : State) : List Request :=
  [.feature ⟨0x12, 0x00, 0x01, 0x08, 0x00, 0x00, 0x00, 0xE4⟩] ++ (List.range 8).map (fun c => .write (s.imageChunk c)) ++
    [.feature ⟨0x08, 0x00, 0x34, 0x05, 0x32, 0x02, 0x01, 0x89⟩]

/-- Every byte of IMG_BUF has been written since reset (R36). -/
def State.imageComplete (s : State) : Prop := ∀ a < 512, (s.imgBuf.read a).isSome = true

/-- The word is illegal (R76): its opcode is none of R72, or a lane (or the bits [7:1] of lane 1 in format A) that its
format marks "0" is not zero. -/
def illegalWord (w : Word) : Prop :=
  ∀ op : Opcode, lane w 7 = op.toByte →
    (∃ l ∈ op.format.zeroLanes, lane w l ≠ 0) ∨ (op.format = .a ∧ 1 < (lane w 1).toNat)

end Sys2Proof.Machine

namespace Sys2Proof

/-- The checked operands of an instruction in the order its errors are reported (R106, R133, R205). -/
def Instr.checksInOrder : Instr → List (FieldCode × Byte)
  | .encodeFrame kind mode p1 p2 color flag =>
      [(.param1, p1), (.param2, p2), (.flag, flag), (.mode, mode), (.kind, kind), (.color, color)]
  | .encodeColor _ _ _ present => [(.present, present)]
  | .imgWriteSlot slot _ _ _ present => [(.slot, slot), (.present, present)]
  | .applyPreset mode speed brightness color =>
      [(.param1, speed), (.param2, brightness), (.mode, mode), (.color, color)]
  | .imgClear => []
  | .imgLoadBegin => []
  | .imgLoadByte _ => []
  | .imgReadByte _ => []
  | .sessionOpen => []
  | .sessionClose => []
  | .applyCustom => []
  | .readStatus => []

/-- The four commands that drive the session (R191). -/
def Instr.isSessionCommand : Instr → Bool
  | .sessionOpen => true
  | .sessionClose => true
  | .applyPreset .. => true
  | .applyCustom => true
  | .encodeFrame .. => false
  | .encodeColor .. => false
  | .imgClear => false
  | .imgWriteSlot .. => false
  | .imgLoadBegin => false
  | .imgLoadByte _ => false
  | .imgReadByte _ => false
  | .readStatus => false

/-- The commands that write IMG_BUF (R50, R56). -/
def Instr.writesImage : Instr → Bool
  | .imgClear => true
  | .imgWriteSlot .. => true
  | .imgLoadByte _ => true
  | .encodeFrame .. => false
  | .encodeColor .. => false
  | .imgLoadBegin => false
  | .imgReadByte _ => false
  | .sessionOpen => false
  | .sessionClose => false
  | .applyPreset .. => false
  | .applyCustom => false
  | .readStatus => false

end Sys2Proof
end

