-- ==== Sys2Proof/Certificates/Slice0/Obligations.lean ====
section
/-! DEFINITION. The statements about the block for the provers, one def per obligation. A next state is written as the old
state with the fields it changes, so each such statement is also the frame of its instruction. -/

open Sys2Proof Sys2Proof.Machine

/-! ### Words -/

/-- Decoding the word of any instruction gives it back, every operand at every value (R71, R78, R86). -/
def Obligations.DecodeOfEncodeIsIdentity : Prop := ∀ i : Instr, decode (encode i) = .ok i

/-- A word that decodes is the encoding of what it decodes to: no bit of a legal word is ignored (R71, R86). -/
def Obligations.DecodedWordIsItsEncoding : Prop := ∀ (w : Word) (i : Instr), decode w = .ok i → encode i = w

/-- A word is legal iff (w & mask) == match for exactly one row of the opcode table (R78). -/
def Obligations.LegalWordsAreTheTableRows : Prop :=
  ∀ w : Word, (∃ i, decode w = .ok i) ↔
    ∃ row ∈ opcodeTable, row.selects w = true ∧ ∀ other ∈ opcodeTable, other.selects w = true → other = row

/-- Words of the spec's examples decode to the instructions they stand for (R86, R102, R111, R131, R133, R137, R140,
R170, R175, R186). -/
def Obligations.ExampleWordsDecode : Prop :=
  decode 0x0100071400010008 = .ok (.encodeFrame 0x08 1 0 20 7 0) ∧
  decode 0x020000010000FF00 = .ok (.encodeColor 255 0 0 1) ∧
  decode 0x1000000000000000 = .ok .imgClear ∧
  decode 0x110000010000FF05 = .ok (.imgWriteSlot 5 255 0 0 1) ∧
  decode 0x13000000000000AB = .ok (.imgLoadByte 0xAB) ∧
  decode 0x14000000000001FF = .ok (.imgReadByte 0x1FF) ∧
  decode 0x2000000000000000 = .ok .sessionOpen ∧
  decode 0x2200071400010000 = .ok (.applyPreset 1 0 20 7) ∧
  decode 0x2300000000000000 = .ok .applyCustom ∧
  decode 0x3000000000000000 = .ok .readStatus

/-! ### Steps -/

/-- With BUSY 0 and a legal word first on the port, a step takes the word, raises BUSY, and is exec of the instruction
(R83). -/
def Obligations.StepRunsDecodedInstruction : Prop :=
  ∀ (s : State) (w : Word) (rest : List Word) (i : Instr),
    s.busy = false → s.port = w :: rest → decode w = .ok i →
      step s = exec i { s with port := rest, busy := true, commands := s.commands ++ [w] }

/-- An illegal word raises IllegalCommand: it changes no state but LAST_ERR and LAST_FIELD and makes no transport call
(R76); the port, the accepted commands and the response are the step's own. -/
def Obligations.IllegalWordRaisesIllegalCommand : Prop :=
  ∀ (s : State) (w : Word) (rest : List Word), s.busy = false → s.port = w :: rest → illegalWord w →
    step s = .next { s with
      port := rest, commands := s.commands ++ [w]
      responses := s.responses ++ [⟨.illegalCommand, .noField, 0⟩], lastErr := .illegalCommand, lastField := .noField }

/-- While BUSY is 1 no word is taken, and nothing writes IMG_BUF, IMG_LEN or SLOT_ASSIGNED (R83, R60, R241). -/
def Obligations.BusyHoldsThePortAndTheImage : Prop :=
  ∀ s : State, s.busy = true →
    ∃ t, step s = .next t ∧ t.port = s.port ∧ t.commands = s.commands ∧ t.imgBuf = s.imgBuf ∧ t.imgLen = s.imgLen ∧
      t.slotAssigned = s.slotAssigned

/-- Waiting loses nothing: a call with no answer stays in flight with BUSY 1 (R161, R216), and with BUSY 0 and nothing
offered the block waits for a command (R230). The second clause and the empty list of answers are the model's form of a
wait (log entries 2 and 8). -/
def Obligations.WaitingKeepsTheState : Prop :=
  (∀ s : State, s.busy = true → s.answers = [] → step s = .next s) ∧
  (∀ s : State, s.busy = false → s.port = [] → step s = .next s)

/-- No state stops the block: every step answers a next state; errors are responses (R208). -/
def Obligations.EveryStepAnswersNextState : Prop := ∀ s : State, ∃ t, step s = .next t

/-! ### Reset -/

/-- The registers after reset (R38): the values the spec gives, IMG_BUF with every byte unspecified (a read is a free value,
in the model's form of it: log entry 3), SLOT_ASSIGNED the parameter, and STATUS zero. Of FRAME_REG, unspecified, nothing is
said. -/
def Obligations.ResetLeavesTheSpecValues : Prop :=
  State.reset.session = .unopened ∧ State.reset.devInconsistent = false ∧ State.reset.lastErr.code = 0 ∧
  fieldBits State.reset.lastField = 0 ∧ State.reset.imgLen.val = 0 ∧
  (∀ a n, (State.readByte a { State.reset with draws := n }).1 = Config.imgDraw n) ∧
  State.reset.seqStep = none ∧ State.reset.busy = false ∧
  (∀ i : Fin 128, State.reset.slotAssigned.getLsbD i.val = (Config.keyLayout i).isSome) ∧
  statusWord State.reset = 0x0000000000000000

/-- The state after reset meets every invariant stated below. -/
def Obligations.ResetMeetsTheInvariants : Prop :=
  State.reset.canonical ∧ State.reset.imageWritten ∧ State.reset.coherent ∧ State.reset.answeredOnce ∧
  State.reset.handleBalanced ∧ State.reset.sendsOnlySendable

/-! ### Frame checksum encoder -/

/-- The 8-bit adder over frame bytes 0 to 6, its carries dropped, gives the checksum: cs = ~s8 = 0xFF - s8 (R103). -/
def Obligations.ChecksumIsTheComplementedAdder : Prop :=
  ∀ kind mode p1 p2 color flag : Byte,
    let f := frame kind mode p1 p2 color flag
    f.checksum = ~~~(f.kind + f.byte1 + f.mode + f.param1 + f.param2 + f.color + f.flag) ∧
    f.checksum.toNat = 0xFF - (f.kind.toNat + f.byte1.toNat + f.mode.toNat + f.param1.toNat + f.param2.toNat +
      f.color.toNat + f.flag.toNat) % 256

/-- The eight bytes of every frame sum to 0xFF modulo 256 (R104). -/
def Obligations.FrameBytesSumTo255 : Prop :=
  ∀ kind mode p1 p2 color flag : Byte,
    let f := frame kind mode p1 p2 color flag
    (f.kind.toNat + f.byte1.toNat + f.mode.toNat + f.param1.toNat + f.param2.toNat + f.color.toNat + f.flag.toNat +
      f.checksum.toNat) % 256 = 0xFF

/-- ENCODE_FRAME of legal fields keeps the frame in FRAME_REG and answers it with frame byte i in lane i; nothing else
changes (R102). -/
def Obligations.EncodeFrameAnswersTheFrame : Prop :=
  ∀ (s : State) (kind mode p1 p2 color flag : Byte),
    kind ∈ [0x08, 0x92, 0x12] → mode ∈ [1, 2, 4, 5, 6, 7, 8, 9, 10, 11, 12, 13, 0x34] → p1.toNat ≤ 10 → p2.toNat ≤ 51 →
    color.toNat ≤ 7 → flag.toNat ≤ 1 →
    ∃ (cs : Byte) (data : Word),
      (cs.toNat : Int) = (0xFF - (kind.toNat + mode.toNat + p1.toNat + p2.toNat + color.toNat + flag.toNat : Int)) % 256 ∧
      lane data 0 = kind ∧ lane data 1 = 0 ∧ lane data 2 = mode ∧ lane data 3 = p1 ∧ lane data 4 = p2 ∧
      lane data 5 = color ∧ lane data 6 = flag ∧ lane data 7 = cs ∧
      exec (.encodeFrame kind mode p1 p2 color flag) s = .next { s with
        frameReg := ⟨kind, 0, mode, p1, p2, color, flag, cs⟩
        responses := s.responses ++ [⟨.ok, .noField, data⟩], lastErr := .ok, lastField := .noField, busy := false }

/-- ENCODE_COLOR with present 0 or 1 answers the record [0, r, g, b], or four zeros where no color is given, byte i in lane
i; nothing else changes (R110, R111). -/
def Obligations.EncodeColorAnswersTheRecord : Prop :=
  ∀ (s : State) (r g b present : Byte), present.toNat ≤ 1 →
    ∃ data : Word,
      lane data 0 = 0 ∧ lane data 1 = (if present = 1 then r else 0) ∧ lane data 2 = (if present = 1 then g else 0) ∧
      lane data 3 = (if present = 1 then b else 0) ∧ lane data 4 = 0 ∧ lane data 5 = 0 ∧ lane data 6 = 0 ∧
      lane data 7 = 0 ∧
      exec (.encodeColor r g b present) s = .next { s with
        responses := s.responses ++ [⟨.ok, .noField, data⟩], lastErr := .ok, lastField := .noField, busy := false }

/-- Neither ENCODE_FRAME nor ENCODE_COLOR reads or writes IMG_BUF, IMG_LEN, SESSION or DEV_INCONSISTENT: both run, keep
them, and do the same whatever they hold (R112). -/
def Obligations.EncodersIgnoreImageAndSession : Prop :=
  ∀ (i : Instr) (s : State) (m : Memory) (n : Fin 514) (v : Session) (d : Bool),
    i.opcode = .encodeFrame ∨ i.opcode = .encodeColor →
    ∃ t, exec i s = .next t ∧ t.imgBuf = s.imgBuf ∧ t.imgLen = s.imgLen ∧ t.session = s.session ∧
      t.devInconsistent = s.devInconsistent ∧
      exec i { s with imgBuf := m, imgLen := n, session := v, devInconsistent := d } =
        .next { t with imgBuf := m, imgLen := n, session := v, devInconsistent := d }

/-- ENCODE_FRAME, ENCODE_COLOR, IMG_WRITE_SLOT and APPLY_PRESET with an operand outside its legal set report exactly the
first such field in the order of R106 and R133, its value in lane 0, and change nothing else (R77, R204, R205). -/
def Obligations.FirstBadOperandIsReported : Prop :=
  ∀ (i : Instr) (s : State) (bad : FieldCode × Byte),
    i.checksInOrder.find? (fun c => !c.1.allows c.2) = some bad →
    exec i s = .next { s with
      responses := s.responses ++ [⟨.validationError, bad.1, bad.2.setWidth 64⟩], lastErr := .validationError
      lastField := bad.1, busy := false }

/-- An instruction is ill-formed exactly when some operand check fails. A well-formed one never ends in ValidationError: it
runs, and either has not ended and has given no response, or has given one, with another code (R74, R77). -/
def Obligations.WellFormedNeverValidationError : Prop :=
  (∀ i : Instr, i.wellFormed = false ↔ ∃ bad, i.checksInOrder.find? (fun c => !c.1.allows c.2) = some bad) ∧
  (∀ (i : Instr) (s : State), i.wellFormed = true →
    ∃ t, exec i s = .next t ∧
      (t.responses = s.responses ∨ ∃ r, t.responses = s.responses ++ [r] ∧ r.code ≠ .validationError))

/-! ### RGB image packer -/

/-- IMG_CLEAR writes 0 to all 512 bytes and sets IMG_LEN to 512; nothing else changes (R131). -/
def Obligations.ImgClearZeroesTheImage : Prop :=
  ∀ s : State, ∃ m : Memory,
    (∀ a < 512, m.read a = some 0) ∧ (∀ a, 512 ≤ a → m.read a = s.imgBuf.read a) ∧
    exec .imgClear s = .next { s with
      imgBuf := m, imgLen := 512
      responses := s.responses ++ [⟨.ok, .noField, 0⟩], lastErr := .ok, lastField := .noField, busy := false }

/-- IMG_WRITE_SLOT to an assigned slot writes its record at 4*(slot-1) and keeps every other byte; nothing else changes,
IMG_LEN among it (R51, R110, R130, R133, R135). -/
def Obligations.ImgWriteSlotWritesTheRecord : Prop :=
  ∀ (s : State) (slot r g b present : Byte), 1 ≤ slot.toNat → slot.toNat ≤ 128 → present.toNat ≤ 1 →
    s.slotAssigned.getLsbD (slot.toNat - 1) = true →
    ∃ m : Memory,
      m.read (4 * (slot.toNat - 1)) = some 0 ∧
      m.read (4 * (slot.toNat - 1) + 1) = some (if present = 1 then r else 0) ∧
      m.read (4 * (slot.toNat - 1) + 2) = some (if present = 1 then g else 0) ∧
      m.read (4 * (slot.toNat - 1) + 3) = some (if present = 1 then b else 0) ∧
      (∀ a, a < 4 * (slot.toNat - 1) ∨ 4 * (slot.toNat - 1) + 4 ≤ a → m.read a = s.imgBuf.read a) ∧
      exec (.imgWriteSlot slot r g b present) s = .next { s with
        imgBuf := m
        responses := s.responses ++ [⟨.ok, .noField, 0⟩], lastErr := .ok, lastField := .noField, busy := false }

/-- IMG_WRITE_SLOT to a slot the layout leaves unassigned answers OK and writes nothing (R130, R133). -/
def Obligations.ImgWriteSlotDropsUnassigned : Prop :=
  ∀ (s : State) (slot r g b present : Byte), 1 ≤ slot.toNat → slot.toNat ≤ 128 → present.toNat ≤ 1 →
    s.slotAssigned.getLsbD (slot.toNat - 1) = false →
    exec (.imgWriteSlot slot r g b present) s = .next { s with
      responses := s.responses ++ [⟨.ok, .noField, 0⟩], lastErr := .ok, lastField := .noField, busy := false }

/-- Two IMG_WRITE_SLOT commands to one slot leave the record of the later one; to different slots they touch disjoint bytes
and commute (R134). -/
def Obligations.SlotWritesLastWinsAndCommute : Prop :=
  ∀ (s a b ab ba : State) (slot1 r1 g1 b1 p1 slot2 r2 g2 b2 p2 : Byte), s.canonical →
    (Instr.imgWriteSlot slot1 r1 g1 b1 p1).wellFormed = true → (Instr.imgWriteSlot slot2 r2 g2 b2 p2).wellFormed = true →
    exec (.imgWriteSlot slot1 r1 g1 b1 p1) s = .next a → exec (.imgWriteSlot slot2 r2 g2 b2 p2) a = .next ab →
    exec (.imgWriteSlot slot2 r2 g2 b2 p2) s = .next b → exec (.imgWriteSlot slot1 r1 g1 b1 p1) b = .next ba →
    (slot1 = slot2 → ab.imgBuf = b.imgBuf) ∧
      (slot1 ≠ slot2 → ab.imgBuf = ba.imgBuf ∧
        ∀ x, a.imgBuf.read x ≠ s.imgBuf.read x → b.imgBuf.read x = s.imgBuf.read x)

/-- IMG_LOAD_BEGIN sets IMG_LEN to 0 and keeps IMG_BUF; nothing else changes (R136). -/
def Obligations.ImgLoadBeginResetsTheLength : Prop :=
  ∀ s : State, ∃ t, exec .imgLoadBegin s = .next t ∧ t.imgLen.val = 0 ∧
    t = { s with
      imgLen := t.imgLen
      responses := s.responses ++ [⟨.ok, .noField, 0⟩], lastErr := .ok, lastField := .noField, busy := false }

/-- IMG_LOAD_BYTE below 512 writes the byte at IMG_LEN, keeps every other byte and advances IMG_LEN; nothing else
changes (R137). -/
def Obligations.ImgLoadByteAppends : Prop :=
  ∀ (s : State) (data : Byte), s.imgLen.val < 512 →
    ∃ (m : Memory) (n : Fin 514),
      n.val = s.imgLen.val + 1 ∧ m.read s.imgLen.val = some data ∧
      (∀ a, a ≠ s.imgLen.val → m.read a = s.imgBuf.read a) ∧
      exec (.imgLoadByte data) s = .next { s with
        imgBuf := m, imgLen := n
        responses := s.responses ++ [⟨.ok, .noField, 0⟩], lastErr := .ok, lastField := .noField, busy := false }

/-- IMG_LOAD_BYTE at 512 or 513 drops the byte and leaves IMG_LEN 513; the response is OK and nothing else changes
(R137). -/
def Obligations.ImgLoadByteOverflowDrops : Prop :=
  ∀ (s : State) (data : Byte), 512 ≤ s.imgLen.val →
    exec (.imgLoadByte data) s = .next { s with
      imgLen := 513
      responses := s.responses ++ [⟨.ok, .noField, 0⟩], lastErr := .ok, lastField := .noField, busy := false }

/-- The load counting law: IMG_LOAD_BEGIN and then n IMG_LOAD_BYTE leave IMG_LEN at n, or at 513 for n > 512; byte j is the
j-th loaded for j < min(n, 512), every other byte is unchanged (R138). The commands are issued on the block one after
another. -/
def Obligations.LoadCountingLaw : Prop :=
  ∀ (s : State) (bytes : List Byte), s.busy = false →
    ∃ t, State.issueAll (loadImage bytes) s = .next t ∧
      t.imgLen.val = (if bytes.length ≤ 512 then bytes.length else 513) ∧
      (∀ j, j < min bytes.length 512 → t.imgBuf.read j = bytes[j]?) ∧
      (∀ j, min bytes.length 512 ≤ j → t.imgBuf.read j = s.imgBuf.read j)

/-- IMG_READ_BYTE of a written byte answers it and changes nothing but the response record (R140). -/
def Obligations.ImgReadByteAnswersTheByte : Prop :=
  ∀ (s : State) (addr : Addr) (v : Byte), s.imgBuf.read addr.toNat = some v →
    exec (.imgReadByte addr) s = .next { s with
      responses := s.responses ++ [⟨.ok, .noField, v.setWidth 64⟩], lastErr := .ok, lastField := .noField, busy := false }

/-- IMG_READ_BYTE of a byte nothing has written answers a free value, a fresh one on every read, and completes (R141). The
counter of draws is the model's own (log entry 3). -/
def Obligations.ImgReadByteUnwrittenIsFree : Prop :=
  ∀ (s : State) (addr : Addr), s.imgBuf.read addr.toNat = none →
    exec (.imgReadByte addr) s = .next { s with
      draws := s.draws + 1
      responses := s.responses ++ [⟨.ok, .noField, (Config.imgDraw s.draws).setWidth 64⟩], lastErr := .ok
      lastField := .noField, busy := false }

/-- After PACK_IMAGE m on a block built with the layout, IMG_LEN is 512 and every slot holds its record: the color m gives
the slot's name, or zeros (R150, R151, R152). The map as a list of names with colors, the first entry of a name counting, is
the model's choice (log entry 16). -/
def Obligations.PackImageFillsEverySlot : Prop :=
  ∀ (s : State) (layout : Fin 128 → Option KeyName) (m : ColorMap), s.busy = false →
    s.slotAssigned = layoutMask layout →
    ∃ t, State.issueAll (packImage layout m) s = .next t ∧ t.imgLen = 512 ∧
      ∀ i : Fin 128,
        t.imgBuf.read (4 * i.val) = some 0 ∧
        t.imgBuf.read (4 * i.val + 1) = some ((slotColor layout m i).elim 0 ColorRGB.r) ∧
        t.imgBuf.read (4 * i.val + 2) = some ((slotColor layout m i).elim 0 ColorRGB.g) ∧
        t.imgBuf.read (4 * i.val + 3) = some ((slotColor layout m i).elim 0 ColorRGB.b)

/-! ### Serializer -/

/-- SESSION_OPEN from Unopened or Failed, its T_OPEN answered: OK opens the session, NOT_FOUND is DeviceNotFoundError,
ERROR is TransportError with DEV_INCONSISTENT in lane 1; one call joins the trace and nothing else changes (R170). -/
def Obligations.SessionOpenFollowsTheOutcome : Prop :=
  ∀ (s : State) (rest : List Answer), s.session = .unopened ∨ s.session = .failed →
    (s.answers = .ok :: rest → exec .sessionOpen s = .next { s with
      session := .opened, inFlight := none, answers := rest, trace := s.trace ++ [⟨.openDevice Config.device, .ok⟩]
      responses := s.responses ++ [⟨.ok, .noField, 0⟩], lastErr := .ok, lastField := .noField, busy := false }) ∧
    (s.answers = .notFound :: rest → exec .sessionOpen s = .next { s with
      inFlight := none, answers := rest, trace := s.trace ++ [⟨.openDevice Config.device, .notFound⟩]
      responses := s.responses ++ [⟨.deviceNotFound, .noField, 0⟩], lastErr := .deviceNotFound, lastField := .noField
      busy := false }) ∧
    (s.answers = .error :: rest → exec .sessionOpen s = .next { s with
      inFlight := none, answers := rest, trace := s.trace ++ [⟨.openDevice Config.device, .error⟩]
      responses := s.responses ++ [⟨.transportError, .noField, if s.devInconsistent then 0x100 else 0⟩]
      lastErr := .transportError, lastField := .noField, busy := false })

/-- A session command in a SESSION state that does not accept it answers StateError with no transport call and no other
change, once its operands and IMG_LEN have passed (R191, R200, R204, R205). -/
def Obligations.WrongSessionIsStateError : Prop :=
  ∀ (s : State) (i : Instr), i.wellFormed = true →
    (i = .sessionOpen ∧ s.session ≠ .unopened ∧ s.session ≠ .failed) ∨ (i = .sessionClose ∧ s.session = .unopened) ∨
      (i.opcode = .applyPreset ∧ s.session ≠ .opened) ∨
      (i = .applyCustom ∧ s.imgLen = 512 ∧ s.session ≠ .opened) →
    exec i s = .next { s with
      responses := s.responses ++ [⟨.stateError, .noField, 0⟩], lastErr := .stateError, lastField := .noField
      busy := false }

/-- SESSION_CLOSE from Opened, Preset or Committed sends T_CLOSE and, once that is answered, leaves Unopened, whatever the
answer; from Failed it sends nothing (R172). -/
def Obligations.SessionCloseReleasesTheHandle : Prop :=
  (∀ (s : State) (a : Answer) (rest : List Answer),
    s.session = .opened ∨ s.session = .preset ∨ s.session = .committed → s.answers = a :: rest →
    exec .sessionClose s = .next { s with
      session := .unopened, inFlight := none, answers := rest, trace := s.trace ++ [⟨.close, .done⟩]
      responses := s.responses ++ [⟨.ok, .noField, 0⟩], lastErr := .ok, lastField := .noField, busy := false }) ∧
  (∀ s : State, s.session = .failed →
    exec .sessionClose s = .next { s with
      session := .unopened
      responses := s.responses ++ [⟨.ok, .noField, 0⟩], lastErr := .ok, lastField := .noField, busy := false })

/-- APPLY_PRESET in Opened with legal operands, its report answered OK: exactly one T_FEATURE with kind Preset, flag 0 and
the computed checksum; SESSION is Preset (R175, R176). -/
def Obligations.ApplyPresetSendsOneFrame : Prop :=
  ∀ (s : State) (mode speed brightness color : Byte) (rest : List Answer),
    (Instr.applyPreset mode speed brightness color).wellFormed = true → s.session = .opened →
    s.answers = .ok :: rest →
    ∃ cs : Byte,
      (cs.toNat : Int) = (0xFF - (8 + mode.toNat + speed.toNat + brightness.toNat + color.toNat : Int)) % 256 ∧
      exec (.applyPreset mode speed brightness color) s = .next { s with
        frameReg := ⟨0x08, 0, mode, speed, brightness, color, 0, cs⟩, seqStep := none, session := .preset
        inFlight := none, answers := rest
        trace := s.trace ++ [⟨.feature ⟨0x08, 0, mode, speed, brightness, color, 0, cs⟩, .ok⟩]
        responses := s.responses ++ [⟨.ok, .noField, 0⟩], lastErr := .ok, lastField := .noField, busy := false }

/-- APPLY_PRESET whose report fails is aborted: T_FEATURE, then T_CLOSE, SESSION Failed, DEV_INCONSISTENT kept and shown in
lane 1, TransportError with index 0 (R164, R175, R203). -/
def Obligations.ApplyPresetFailureAborts : Prop :=
  ∀ (s : State) (mode speed brightness color : Byte) (a : Answer) (rest : List Answer),
    (Instr.applyPreset mode speed brightness color).wellFormed = true → s.session = .opened →
    s.answers = .error :: a :: rest →
    exec (.applyPreset mode speed brightness color) s = .next { s with
      frameReg := frame 0x08 mode speed brightness color 0, seqStep := none, session := .failed
      inFlight := none, answers := rest
      trace := s.trace ++ [⟨.feature (frame 0x08 mode speed brightness color 0), .error⟩, ⟨.close, .done⟩]
      responses := s.responses ++ [⟨.transportError, .noField, if s.devInconsistent then 0x100 else 0⟩]
      lastErr := .transportError, lastField := .noField, busy := false }

/-- APPLY_CUSTOM in Opened with a complete image, every call answered OK, appends exactly the 10 calls of R185 in order and
commits: SESSION Committed, DEV_INCONSISTENT 0 (R180, R183, R185). That a complete image is written is R36, the statement
StepKeepsCountedBytesWritten. -/
def Obligations.ApplyCustomUploadsAndCommits : Prop :=
  ∀ (s : State) (rest : List Answer), s.session = .opened → s.imgLen = 512 → s.imageComplete →
    s.answers = List.replicate 10 .ok ++ rest →
    exec .applyCustom s = .next { s with
      frameReg := ⟨0x08, 0x00, 0x34, 0x05, 0x32, 0x02, 0x01, 0x89⟩, seqStep := none, session := .committed
      devInconsistent := false, inFlight := none, answers := rest
      trace := s.trace ++ s.uploadRequests.map (fun q => ⟨q, .ok⟩)
      responses := s.responses ++ [⟨.ok, .noField, 0⟩], lastErr := .ok, lastField := .noField, busy := false }

/-- APPLY_CUSTOM whose call i fails makes calls 0 to i of R185 and one T_CLOSE, no more; SESSION is Failed,
DEV_INCONSISTENT is set if i >= 1 and kept if i = 0, TransportError carries i and DEV_INCONSISTENT (R164, R184, R185,
R203). -/
def Obligations.ApplyCustomFailureAborts : Prop :=
  ∀ (s : State) (i : Fin 10) (a : Answer) (rest : List Answer), s.session = .opened → s.imgLen = 512 → s.imageComplete →
    s.answers = List.replicate i.val .ok ++ .error :: a :: rest →
    exec .applyCustom s = .next { s with
      frameReg := if i = 9 then ⟨0x08, 0x00, 0x34, 0x05, 0x32, 0x02, 0x01, 0x89⟩
        else ⟨0x12, 0x00, 0x01, 0x08, 0x00, 0x00, 0x00, 0xE4⟩
      seqStep := none, session := .failed, devInconsistent := s.devInconsistent || i != 0
      inFlight := none, answers := rest
      trace := s.trace ++ (s.uploadRequests.take i.val).map (fun q => ⟨q, .ok⟩) ++
        (s.uploadRequests[i.val]?.toList).map (fun q => ⟨q, .error⟩) ++ [⟨.close, .done⟩]
      responses := s.responses ++
        [⟨.transportError, .noField, BitVec.ofNat 64 (i.val + if s.devInconsistent || i != 0 then 0x100 else 0)⟩]
      lastErr := .transportError, lastField := .noField, busy := false }

/-- APPLY_CUSTOM whose call i has not been answered waits: BUSY is as it was, SEQ_STEP is i, SESSION is Uploading only
once call 0 is OK, and the request of call i is in flight (R32, R33, R161, R182). -/
def Obligations.ApplyCustomWaitsAtACall : Prop :=
  ∀ (s : State) (i : Fin 10), s.session = .opened → s.imgLen = 512 → s.imageComplete →
    s.answers = List.replicate i.val .ok →
    ∃ q, s.uploadRequests[i.val]? = some q ∧
      exec .applyCustom s = .next { s with
        frameReg := if i = 9 then ⟨0x08, 0x00, 0x34, 0x05, 0x32, 0x02, 0x01, 0x89⟩
          else ⟨0x12, 0x00, 0x01, 0x08, 0x00, 0x00, 0x00, 0xE4⟩
        seqStep := some i, session := if i = 0 then .opened else .uploading
        inFlight := some ⟨q, .upload i⟩, answers := []
        trace := s.trace ++ (s.uploadRequests.take i.val).map (fun q => ⟨q, .ok⟩) }

/-- APPLY_CUSTOM with IMG_LEN not 512 answers LengthError with IMG_LEN as data, before any transport call and whatever
SESSION is (R180, R202, R205). -/
def Obligations.ApplyCustomLengthError : Prop :=
  ∀ s : State, s.imgLen ≠ 512 →
    exec .applyCustom s = .next { s with
      responses := s.responses ++ [⟨.lengthError, .noField, BitVec.ofNat 64 s.imgLen.val⟩], lastErr := .lengthError
      lastField := .noField, busy := false }

/-- READ_STATUS answers the STATUS word of R31, field by field, and changes no register but BUSY: LAST_ERR and LAST_FIELD stay
(R29, R31, R186). -/
def Obligations.ReadStatusAnswersStatus : Prop :=
  ∀ s : State, ∃ w : Word,
    w.extractLsb' 0 3 = s.session.code ∧ w.getLsbD 3 = s.devInconsistent ∧ w.extractLsb' 4 4 = s.lastErr.code ∧
    w.extractLsb' 8 4 = fieldBits s.lastField ∧ (w.extractLsb' 12 10).toNat = s.imgLen.val ∧ w.extractLsb' 22 42 = 0 ∧
    exec .readStatus s = .next { s with responses := s.responses ++ [⟨.ok, .noField, w⟩], busy := false }

/-- READ_STATUS never returns SESSION = 3: where a step of a coherent state takes its word, bits [2:0] of the STATUS it
answers are not 3. A coherent state in Uploading is inside APPLY_CUSTOM, at a call of the upload or at the abort's close, with
BUSY 1, and a step there accepts no command (R37). -/
def Obligations.StatusNeverShowsUploading : Prop :=
  (∀ (s : State) (rest : List Word), s.coherent → s.busy = false → s.port = encode .readStatus :: rest →
    ∃ (t : State) (w : Word), step s = .next t ∧ t.responses = s.responses ++ [⟨.ok, .noField, w⟩] ∧
      w.extractLsb' 0 3 ≠ 3) ∧
  (∀ s : State, s.coherent → s.session = .uploading →
    s.busy = true ∧ (∃ f i, s.inFlight = some f ∧ (f.resume = .upload i ∨ f.resume = .aborting i true)) ∧
      ∃ t, step s = .next t ∧ t.commands = s.commands)

/-- SESSION_OPEN, SESSION_CLOSE and APPLY_PRESET with no answer at hand wait: the request is in flight, no response is
given, and only what R170, R172 and R175 write before the call has changed (R32, R33, R161). -/
def Obligations.SessionCommandsWaitForTheTransport : Prop :=
  ∀ s : State, s.answers = [] →
    (s.session = .unopened ∨ s.session = .failed →
      exec .sessionOpen s = .next { s with inFlight := some ⟨.openDevice Config.device, .opening⟩ }) ∧
    (s.session = .opened ∨ s.session = .preset ∨ s.session = .committed →
      exec .sessionClose s = .next { s with inFlight := some ⟨.close, .closing⟩ }) ∧
    (∀ mode speed brightness color : Byte, s.session = .opened →
      (Instr.applyPreset mode speed brightness color).wellFormed = true →
      exec (.applyPreset mode speed brightness color) s = .next { s with
        frameReg := frame 0x08 mode speed brightness color 0, seqStep := some 0
        inFlight := some ⟨.feature (frame 0x08 mode speed brightness color 0), .preset⟩ })

/-- APPLY_PRESET and APPLY_CUSTOM whose call has failed wait for the abort's T_CLOSE: the failed call is in the trace, the
close is in flight, no response is given, and SESSION, DEV_INCONSISTENT and SEQ_STEP are not yet what the abort makes them
(R161, R164). -/
def Obligations.AbortWaitsForTheClose : Prop :=
  (∀ (s : State) (mode speed brightness color : Byte),
    (Instr.applyPreset mode speed brightness color).wellFormed = true → s.session = .opened → s.answers = [.error] →
    exec (.applyPreset mode speed brightness color) s = .next { s with
      frameReg := frame 0x08 mode speed brightness color 0, seqStep := some 0
      inFlight := some ⟨.close, .aborting 0 false⟩, answers := []
      trace := s.trace ++ [⟨.feature (frame 0x08 mode speed brightness color 0), .error⟩] }) ∧
  (∀ (s : State) (i : Fin 10), s.session = .opened → s.imgLen = 512 → s.imageComplete →
    s.answers = List.replicate i.val .ok ++ [.error] →
    exec .applyCustom s = .next { s with
      frameReg := if i = 9 then ⟨0x08, 0x00, 0x34, 0x05, 0x32, 0x02, 0x01, 0x89⟩
        else ⟨0x12, 0x00, 0x01, 0x08, 0x00, 0x00, 0x00, 0xE4⟩
      seqStep := some i, session := if i = 0 then .opened else .uploading
      inFlight := some ⟨.close, .aborting i (i != 0)⟩, answers := []
      trace := s.trace ++ (s.uploadRequests.take i.val).map (fun q => ⟨q, .ok⟩) ++
        (s.uploadRequests[i.val]?.toList).map (fun q => ⟨q, .error⟩) })

/-- When the transport's answers come makes no difference (R59, R161): a command that waits and is given further answers
goes on to what it would have done with all of them at hand. -/
def Obligations.AnswerTimingMakesNoDifference : Prop :=
  ∀ (i : Instr) (s t : State) (more : List Answer), s.busy = true → exec i s = .next t → t.busy = true →
    exec i (s.supply more) = step (t.supply more)

/-! ### Frames over families -/

/-- ENCODE_*, IMG_* and READ_STATUS make no transport call and change none of SESSION, DEV_INCONSISTENT, SEQ_STEP,
SLOT_ASSIGNED, the request in flight, the answers, the port, the accepted commands (R112, R191, R215). -/
def Obligations.OtherCommandsKeepTheSession : Prop :=
  ∀ (i : Instr) (s : State), i.isSessionCommand = false →
    ∃ t, exec i s = .next t ∧ t.session = s.session ∧ t.devInconsistent = s.devInconsistent ∧ t.seqStep = s.seqStep ∧
      t.slotAssigned = s.slotAssigned ∧ t.inFlight = s.inFlight ∧ t.answers = s.answers ∧ t.trace = s.trace ∧
      t.port = s.port ∧ t.commands = s.commands ∧ (i.opcode ≠ .encodeFrame → t.frameReg = s.frameReg)

/-- Every command but IMG_CLEAR, IMG_WRITE_SLOT and IMG_LOAD_BYTE leaves every byte of IMG_BUF, and all but those and
IMG_LOAD_BEGIN leave IMG_LEN; whatever the transport answers (R50, R56). -/
def Obligations.OtherCommandsKeepTheImage : Prop :=
  ∀ (i : Instr) (s : State), i.writesImage = false →
    ∃ t, exec i s = .next t ∧ (∀ a, t.imgBuf.read a = s.imgBuf.read a) ∧
      (i ≠ .imgLoadBegin → t.imgLen = s.imgLen) ∧ t.slotAssigned = s.slotAssigned ∧ t.port = s.port ∧
      t.commands = s.commands

/-- LAST_ERR and LAST_FIELD take the code and field of the one response a command gives; while it waits for the transport
there is no response and they stay; READ_STATUS leaves them (R29, R80). -/
def Obligations.LastErrorRecordsTheResponse : Prop :=
  ∀ (i : Instr) (s : State), s.busy = true →
    ∃ t, exec i s = .next t ∧
      (t.busy = false → ∃ r, t.responses = s.responses ++ [r] ∧
        (if i = .readStatus then t.lastErr = s.lastErr ∧ t.lastField = s.lastField
          else t.lastErr = r.code ∧ t.lastField = r.field)) ∧
      (t.busy = true → t.responses = s.responses ∧ t.lastErr = s.lastErr ∧ t.lastField = s.lastField)

/-- DEV_INCONSISTENT is changed by APPLY_CUSTOM alone, and SESSION_OPEN and SESSION_CLOSE leave it (R30). -/
def Obligations.OnlyApplyCustomChangesDevInconsistent : Prop :=
  ∀ (i : Instr) (s : State), i ≠ .applyCustom → ∃ t, exec i s = .next t ∧ t.devInconsistent = s.devInconsistent

/-- SLOT_ASSIGNED is the mask of the layout from reset on: bit i tells that slot i+1 has a name, and no step changes it
(R28). -/
def Obligations.SlotAssignedIsTheLayoutMask : Prop :=
  (∀ i : Fin 128, State.reset.slotAssigned.getLsbD i.val = (Config.keyLayout i).isSome) ∧
  ∀ s : State, ∃ t, step s = .next t ∧ t.slotAssigned = s.slotAssigned

/-- Only SESSION_OPEN, and only by an OK outcome of its T_OPEN, leaves Unopened or Failed for a state that owns a handle, and
that state is Opened (R171). The command is the one a step accepts or the one whose T_OPEN is in flight. -/
def Obligations.OnlyAnOpenGainsTheHandle : Prop :=
  ∀ s t : State, s.coherent → step s = .next t → s.session.holdsHandle = false → t.session.holdsHandle = true →
    t.session = .opened ∧ t.trace = s.trace ++ [⟨.openDevice Config.device, .ok⟩] ∧
      ((s.busy = false ∧ s.port.head? = some (encode .sessionOpen)) ∨
        (s.busy = true ∧ s.inFlight = some ⟨.openDevice Config.device, .opening⟩))

/-! ### Invariants every step keeps -/

/-- Every step keeps IMG_BUF in its canonical form: addresses rising, all below 512 (R50). -/
def Obligations.StepKeepsMemoryCanonical : Prop := ∀ s t : State, s.canonical → step s = .next t → t.canonical

/-- Every step keeps the bytes IMG_LEN counts written; so with IMG_LEN = 512 every byte of IMG_BUF has been written since
reset (R36). -/
def Obligations.StepKeepsCountedBytesWritten : Prop :=
  (∀ s t : State, s.imageWritten → step s = .next t → t.imageWritten) ∧
  (∀ s : State, s.imageWritten → s.imgLen = 512 → s.imageComplete)

/-- Every step keeps BUSY, SEQ_STEP, SESSION, FRAME_REG and the request in flight in agreement (R32, R33, R35). -/
def Obligations.StepKeepsControlCoherent : Prop := ∀ s t : State, s.coherent → step s = .next t → t.coherent

/-- Every step keeps the count: one response per accepted command, but for the one in progress (R80). -/
def Obligations.StepKeepsOneResponsePerCommand : Prop :=
  ∀ s t : State, s.answeredOnce → step s = .next t → t.answeredOnce

/-- Every step of a coherent state keeps the handles gained and released in balance with SESSION: a handle is held exactly
in Opened, Preset, Uploading and Committed (R35). -/
def Obligations.StepKeepsHandleBalance : Prop :=
  ∀ s t : State, s.coherent → s.handleBalanced → step s = .next t → t.handleBalanced

/-- Every step keeps what is sent legal: frames with the computed checksum, never mode 3, flag 1 in the commit frame alone;
chunks of 64 bytes; outcomes of the request's own set (R160, R163, R244, R245). -/
def Obligations.StepKeepsTrafficSendable : Prop :=
  ∀ s t : State, s.sendsOnlySendable → step s = .next t → t.sendsOnlySendable
end

