-- ==== Sys2Proof/Laws/Encoding.lean ====
section
/-! SUPPORT. Lanes of a packed word, and the encodings written as packed words. -/

namespace Sys2Proof

@[simp] theorem lane_pack_0 (a b c d e f g h : Byte) : lane (pack a b c d e f g h) 0 = h := by
  ext j hj; interval_cases j <;> simp [lane, pack]

@[simp] theorem lane_pack_1 (a b c d e f g h : Byte) : lane (pack a b c d e f g h) 1 = g := by
  ext j hj; interval_cases j <;> simp [lane, pack]

@[simp] theorem lane_pack_2 (a b c d e f g h : Byte) : lane (pack a b c d e f g h) 2 = f := by
  ext j hj; interval_cases j <;> simp [lane, pack]

@[simp] theorem lane_pack_3 (a b c d e f g h : Byte) : lane (pack a b c d e f g h) 3 = e := by
  ext j hj; interval_cases j <;> simp [lane, pack]

@[simp] theorem lane_pack_4 (a b c d e f g h : Byte) : lane (pack a b c d e f g h) 4 = d := by
  ext j hj; interval_cases j <;> simp [lane, pack]

@[simp] theorem lane_pack_5 (a b c d e f g h : Byte) : lane (pack a b c d e f g h) 5 = c := by
  ext j hj; interval_cases j <;> simp [lane, pack]

@[simp] theorem lane_pack_6 (a b c d e f g h : Byte) : lane (pack a b c d e f g h) 6 = b := by
  ext j hj; interval_cases j <;> simp [lane, pack]

@[simp] theorem lane_pack_7 (a b c d e f g h : Byte) : lane (pack a b c d e f g h) 7 = a := by
  ext j hj; interval_cases j <;> simp [lane, pack]

/-- A word is its eight lanes. -/
theorem pack_lanes (w : Word) :
    pack (lane w 7) (lane w 6) (lane w 5) (lane w 4) (lane w 3) (lane w 2) (lane w 1) (lane w 0) = w := by
  ext j hj; interval_cases j <;> simp [lane, pack]

/-- Reading an opcode byte back. -/
@[simp] theorem Opcode.ofByte?_toByte (op : Opcode) : Opcode.ofByte? op.toByte = some op := by
  cases op <;> rfl

theorem Opcode.toByte_of_ofByte? {b : Byte} {op : Opcode} (h : Opcode.ofByte? b = some op) : b = op.toByte :=
  (beq_iff_eq.1 (List.find?_some (p := fun op : Opcode => op.toByte == b) h)).symm

/-- The opcode lane of an encoding (R70, R86). -/
@[simp] theorem lane_encode_7 (i : Instr) : lane (encode i) 7 = i.opcode.toByte := by
  cases i <;> simp [encode]

/-- A decoded word: its opcode names an operation, its reserved bits are zero, and the operands are its lanes (R78). -/
theorem decode_eq_ok {w : Word} {i : Instr} (h : decode w = .ok i) :
    ∃ op, lane w 7 = Opcode.toByte op ∧ op.format.zerosHold w = true ∧ i = op.operands w := by
  unfold decode at h
  split at h
  · simp at h
  · next op hop =>
    split_ifs at h with hz
    exact ⟨op, Opcode.toByte_of_ofByte? hop, hz, by simpa using h.symm⟩

/-- A word whose opcode names an operation and whose reserved bits are zero decodes to its operands (R78). -/
theorem decode_of_zeros {w : Word} {op : Opcode} (h7 : lane w 7 = op.toByte) (hz : op.format.zerosHold w = true) :
    decode w = .ok (op.operands w) := by
  simp [decode, h7, hz]

/-- The reserved bits of an encoding are zero (R71, R86). -/
theorem zerosHold_encode (i : Instr) : i.opcode.format.zerosHold (encode i) = true := by
  cases i <;> simp [Format.zerosHold, Instr.opcode, Opcode.format, Format.zeroLanes, encode]
  ext j hj
  simp

/-- Words with equal lanes are equal. -/
theorem lane_ext {v w : Word} (h : ∀ i < 8, lane v i = lane w i) : v = w := by
  rw [← pack_lanes v, ← pack_lanes w, h 0 (by decide), h 1 (by decide), h 2 (by decide), h 3 (by decide),
    h 4 (by decide), h 5 (by decide), h 6 (by decide), h 7 (by decide)]

theorem lane_and (v w : Word) (i : Nat) : lane (v &&& w) i = lane v i &&& lane w i := by
  ext j hj; simp [lane]

theorem byte_and_255 (b : Byte) : b &&& 255#8 = b := by
  simpa using BitVec.and_allOnes (x := b)

theorem byte_and_254 : ∀ b : Byte, b &&& 254#8 = 0#8 ↔ b.extractLsb' 1 7 = 0#7 := by decide

/-- A row of the table selects exactly the words whose opcode is its own and whose reserved bits are zero (R71, R78). -/
theorem Opcode.row_selects (op : Opcode) (w : Word) :
    op.row.selects w = true ↔ lane w 7 = op.toByte ∧ op.format.zerosHold w = true := by
  have hlanes : op.row.selects w = true ↔ ∀ i < 8, lane w i &&& lane op.row.maskBits i = lane op.row.matchBits i := by
    rw [TableRow.selects, beq_iff_eq]
    exact ⟨fun h i _ => by rw [← lane_and, h], fun h => lane_ext fun i hi => by rw [lane_and, h i hi]⟩
  have heach : ∀ p : Nat → Prop, (∀ i < 8, p i) ↔ p 0 ∧ p 1 ∧ p 2 ∧ p 3 ∧ p 4 ∧ p 5 ∧ p 6 ∧ p 7 := fun p =>
    ⟨fun h => ⟨h 0 (by decide), h 1 (by decide), h 2 (by decide), h 3 (by decide), h 4 (by decide), h 5 (by decide),
      h 6 (by decide), h 7 (by decide)⟩, fun ⟨_, _, _, _, _, _, _, _⟩ i _ => by interval_cases i <;> assumption⟩
  rw [hlanes, heach]
  cases op <;>
    simp [Opcode.row, lane, Opcode.toByte, Format.zerosHold, Opcode.format, Format.zeroLanes, byte_and_255,
      byte_and_254] <;> tauto

end Sys2Proof
end

