-- ==== Sys2Proof/Laws/State.lean ====
section
/-! SUPPORT. What each update of the state does to each field, and the errors as uses of respond: one lemma per field and
update, so that no later proof unfolds a record update. -/

namespace Sys2Proof.Machine

/-! ### State.send -/

@[simp] theorem State.send_session (r : Response) (s : State) :
    (s.send r).session = s.session := rfl
@[simp] theorem State.send_devInconsistent (r : Response) (s : State) :
    (s.send r).devInconsistent = s.devInconsistent := rfl
@[simp] theorem State.send_lastErr (r : Response) (s : State) :
    (s.send r).lastErr = s.lastErr := rfl
@[simp] theorem State.send_lastField (r : Response) (s : State) :
    (s.send r).lastField = s.lastField := rfl
@[simp] theorem State.send_imgLen (r : Response) (s : State) :
    (s.send r).imgLen = s.imgLen := rfl
@[simp] theorem State.send_imgBuf (r : Response) (s : State) :
    (s.send r).imgBuf = s.imgBuf := rfl
@[simp] theorem State.send_frameReg (r : Response) (s : State) :
    (s.send r).frameReg = s.frameReg := rfl
@[simp] theorem State.send_seqStep (r : Response) (s : State) :
    (s.send r).seqStep = s.seqStep := rfl
@[simp] theorem State.send_busy (r : Response) (s : State) :
    (s.send r).busy = false := rfl
@[simp] theorem State.send_slotAssigned (r : Response) (s : State) :
    (s.send r).slotAssigned = s.slotAssigned := rfl
@[simp] theorem State.send_inFlight (r : Response) (s : State) :
    (s.send r).inFlight = s.inFlight := rfl
@[simp] theorem State.send_port (r : Response) (s : State) :
    (s.send r).port = s.port := rfl
@[simp] theorem State.send_answers (r : Response) (s : State) :
    (s.send r).answers = s.answers := rfl
@[simp] theorem State.send_commands (r : Response) (s : State) :
    (s.send r).commands = s.commands := rfl
@[simp] theorem State.send_responses (r : Response) (s : State) :
    (s.send r).responses = s.responses ++ [r] := rfl
@[simp] theorem State.send_trace (r : Response) (s : State) :
    (s.send r).trace = s.trace := rfl
@[simp] theorem State.send_draws (r : Response) (s : State) :
    (s.send r).draws = s.draws := rfl

/-! ### State.respond -/

@[simp] theorem State.respond_session (code : RspCode) (field : FieldCode) (data : Word) (s : State) :
    (s.respond code field data).session = s.session := rfl
@[simp] theorem State.respond_devInconsistent (code : RspCode) (field : FieldCode) (data : Word) (s : State) :
    (s.respond code field data).devInconsistent = s.devInconsistent := rfl
@[simp] theorem State.respond_lastErr (code : RspCode) (field : FieldCode) (data : Word) (s : State) :
    (s.respond code field data).lastErr = code := rfl
@[simp] theorem State.respond_lastField (code : RspCode) (field : FieldCode) (data : Word) (s : State) :
    (s.respond code field data).lastField = field := rfl
@[simp] theorem State.respond_imgLen (code : RspCode) (field : FieldCode) (data : Word) (s : State) :
    (s.respond code field data).imgLen = s.imgLen := rfl
@[simp] theorem State.respond_imgBuf (code : RspCode) (field : FieldCode) (data : Word) (s : State) :
    (s.respond code field data).imgBuf = s.imgBuf := rfl
@[simp] theorem State.respond_frameReg (code : RspCode) (field : FieldCode) (data : Word) (s : State) :
    (s.respond code field data).frameReg = s.frameReg := rfl
@[simp] theorem State.respond_seqStep (code : RspCode) (field : FieldCode) (data : Word) (s : State) :
    (s.respond code field data).seqStep = s.seqStep := rfl
@[simp] theorem State.respond_busy (code : RspCode) (field : FieldCode) (data : Word) (s : State) :
    (s.respond code field data).busy = false := rfl
@[simp] theorem State.respond_slotAssigned (code : RspCode) (field : FieldCode) (data : Word) (s : State) :
    (s.respond code field data).slotAssigned = s.slotAssigned := rfl
@[simp] theorem State.respond_inFlight (code : RspCode) (field : FieldCode) (data : Word) (s : State) :
    (s.respond code field data).inFlight = s.inFlight := rfl
@[simp] theorem State.respond_port (code : RspCode) (field : FieldCode) (data : Word) (s : State) :
    (s.respond code field data).port = s.port := rfl
@[simp] theorem State.respond_answers (code : RspCode) (field : FieldCode) (data : Word) (s : State) :
    (s.respond code field data).answers = s.answers := rfl
@[simp] theorem State.respond_commands (code : RspCode) (field : FieldCode) (data : Word) (s : State) :
    (s.respond code field data).commands = s.commands := rfl
@[simp] theorem State.respond_responses (code : RspCode) (field : FieldCode) (data : Word) (s : State) :
    (s.respond code field data).responses = s.responses ++ [⟨code, field, data⟩] := rfl
@[simp] theorem State.respond_trace (code : RspCode) (field : FieldCode) (data : Word) (s : State) :
    (s.respond code field data).trace = s.trace := rfl
@[simp] theorem State.respond_draws (code : RspCode) (field : FieldCode) (data : Word) (s : State) :
    (s.respond code field data).draws = s.draws := rfl

/-! ### State.memWrite -/

@[simp] theorem State.memWrite_session (a : Nat) (bytes : List Byte) (s : State) :
    (s.memWrite a bytes).session = s.session := rfl
@[simp] theorem State.memWrite_devInconsistent (a : Nat) (bytes : List Byte) (s : State) :
    (s.memWrite a bytes).devInconsistent = s.devInconsistent := rfl
@[simp] theorem State.memWrite_lastErr (a : Nat) (bytes : List Byte) (s : State) :
    (s.memWrite a bytes).lastErr = s.lastErr := rfl
@[simp] theorem State.memWrite_lastField (a : Nat) (bytes : List Byte) (s : State) :
    (s.memWrite a bytes).lastField = s.lastField := rfl
@[simp] theorem State.memWrite_imgLen (a : Nat) (bytes : List Byte) (s : State) :
    (s.memWrite a bytes).imgLen = s.imgLen := rfl
@[simp] theorem State.memWrite_imgBuf (a : Nat) (bytes : List Byte) (s : State) :
    (s.memWrite a bytes).imgBuf = s.imgBuf.writeBytes a bytes := rfl
@[simp] theorem State.memWrite_frameReg (a : Nat) (bytes : List Byte) (s : State) :
    (s.memWrite a bytes).frameReg = s.frameReg := rfl
@[simp] theorem State.memWrite_seqStep (a : Nat) (bytes : List Byte) (s : State) :
    (s.memWrite a bytes).seqStep = s.seqStep := rfl
@[simp] theorem State.memWrite_busy (a : Nat) (bytes : List Byte) (s : State) :
    (s.memWrite a bytes).busy = s.busy := rfl
@[simp] theorem State.memWrite_slotAssigned (a : Nat) (bytes : List Byte) (s : State) :
    (s.memWrite a bytes).slotAssigned = s.slotAssigned := rfl
@[simp] theorem State.memWrite_inFlight (a : Nat) (bytes : List Byte) (s : State) :
    (s.memWrite a bytes).inFlight = s.inFlight := rfl
@[simp] theorem State.memWrite_port (a : Nat) (bytes : List Byte) (s : State) :
    (s.memWrite a bytes).port = s.port := rfl
@[simp] theorem State.memWrite_answers (a : Nat) (bytes : List Byte) (s : State) :
    (s.memWrite a bytes).answers = s.answers := rfl
@[simp] theorem State.memWrite_commands (a : Nat) (bytes : List Byte) (s : State) :
    (s.memWrite a bytes).commands = s.commands := rfl
@[simp] theorem State.memWrite_responses (a : Nat) (bytes : List Byte) (s : State) :
    (s.memWrite a bytes).responses = s.responses := rfl
@[simp] theorem State.memWrite_trace (a : Nat) (bytes : List Byte) (s : State) :
    (s.memWrite a bytes).trace = s.trace := rfl
@[simp] theorem State.memWrite_draws (a : Nat) (bytes : List Byte) (s : State) :
    (s.memWrite a bytes).draws = s.draws := rfl

/-! ### State.accept -/

@[simp] theorem State.accept_session (w : Word) (rest : List Word) (s : State) :
    (s.accept w rest).session = s.session := rfl
@[simp] theorem State.accept_devInconsistent (w : Word) (rest : List Word) (s : State) :
    (s.accept w rest).devInconsistent = s.devInconsistent := rfl
@[simp] theorem State.accept_lastErr (w : Word) (rest : List Word) (s : State) :
    (s.accept w rest).lastErr = s.lastErr := rfl
@[simp] theorem State.accept_lastField (w : Word) (rest : List Word) (s : State) :
    (s.accept w rest).lastField = s.lastField := rfl
@[simp] theorem State.accept_imgLen (w : Word) (rest : List Word) (s : State) :
    (s.accept w rest).imgLen = s.imgLen := rfl
@[simp] theorem State.accept_imgBuf (w : Word) (rest : List Word) (s : State) :
    (s.accept w rest).imgBuf = s.imgBuf := rfl
@[simp] theorem State.accept_frameReg (w : Word) (rest : List Word) (s : State) :
    (s.accept w rest).frameReg = s.frameReg := rfl
@[simp] theorem State.accept_seqStep (w : Word) (rest : List Word) (s : State) :
    (s.accept w rest).seqStep = s.seqStep := rfl
@[simp] theorem State.accept_busy (w : Word) (rest : List Word) (s : State) :
    (s.accept w rest).busy = true := rfl
@[simp] theorem State.accept_slotAssigned (w : Word) (rest : List Word) (s : State) :
    (s.accept w rest).slotAssigned = s.slotAssigned := rfl
@[simp] theorem State.accept_inFlight (w : Word) (rest : List Word) (s : State) :
    (s.accept w rest).inFlight = s.inFlight := rfl
@[simp] theorem State.accept_port (w : Word) (rest : List Word) (s : State) :
    (s.accept w rest).port = rest := rfl
@[simp] theorem State.accept_answers (w : Word) (rest : List Word) (s : State) :
    (s.accept w rest).answers = s.answers := rfl
@[simp] theorem State.accept_commands (w : Word) (rest : List Word) (s : State) :
    (s.accept w rest).commands = s.commands ++ [w] := rfl
@[simp] theorem State.accept_responses (w : Word) (rest : List Word) (s : State) :
    (s.accept w rest).responses = s.responses := rfl
@[simp] theorem State.accept_trace (w : Word) (rest : List Word) (s : State) :
    (s.accept w rest).trace = s.trace := rfl
@[simp] theorem State.accept_draws (w : Word) (rest : List Word) (s : State) :
    (s.accept w rest).draws = s.draws := rfl

/-! ### State.issue -/

@[simp] theorem State.issue_session (request : Request) (resume : Resume) (s : State) :
    (s.issue request resume).session = s.session := rfl
@[simp] theorem State.issue_devInconsistent (request : Request) (resume : Resume) (s : State) :
    (s.issue request resume).devInconsistent = s.devInconsistent := rfl
@[simp] theorem State.issue_lastErr (request : Request) (resume : Resume) (s : State) :
    (s.issue request resume).lastErr = s.lastErr := rfl
@[simp] theorem State.issue_lastField (request : Request) (resume : Resume) (s : State) :
    (s.issue request resume).lastField = s.lastField := rfl
@[simp] theorem State.issue_imgLen (request : Request) (resume : Resume) (s : State) :
    (s.issue request resume).imgLen = s.imgLen := rfl
@[simp] theorem State.issue_imgBuf (request : Request) (resume : Resume) (s : State) :
    (s.issue request resume).imgBuf = s.imgBuf := rfl
@[simp] theorem State.issue_frameReg (request : Request) (resume : Resume) (s : State) :
    (s.issue request resume).frameReg = s.frameReg := rfl
@[simp] theorem State.issue_seqStep (request : Request) (resume : Resume) (s : State) :
    (s.issue request resume).seqStep = s.seqStep := rfl
@[simp] theorem State.issue_busy (request : Request) (resume : Resume) (s : State) :
    (s.issue request resume).busy = s.busy := rfl
@[simp] theorem State.issue_slotAssigned (request : Request) (resume : Resume) (s : State) :
    (s.issue request resume).slotAssigned = s.slotAssigned := rfl
@[simp] theorem State.issue_inFlight (request : Request) (resume : Resume) (s : State) :
    (s.issue request resume).inFlight = some ⟨request, resume⟩ := rfl
@[simp] theorem State.issue_port (request : Request) (resume : Resume) (s : State) :
    (s.issue request resume).port = s.port := rfl
@[simp] theorem State.issue_answers (request : Request) (resume : Resume) (s : State) :
    (s.issue request resume).answers = s.answers := rfl
@[simp] theorem State.issue_commands (request : Request) (resume : Resume) (s : State) :
    (s.issue request resume).commands = s.commands := rfl
@[simp] theorem State.issue_responses (request : Request) (resume : Resume) (s : State) :
    (s.issue request resume).responses = s.responses := rfl
@[simp] theorem State.issue_trace (request : Request) (resume : Resume) (s : State) :
    (s.issue request resume).trace = s.trace := rfl
@[simp] theorem State.issue_draws (request : Request) (resume : Resume) (s : State) :
    (s.issue request resume).draws = s.draws := rfl

/-! ### State.issueFrame -/

@[simp] theorem State.issueFrame_session (f : Frame) (step : Fin 10) (resume : Resume) (s : State) :
    (s.issueFrame f step resume).session = s.session := rfl
@[simp] theorem State.issueFrame_devInconsistent (f : Frame) (step : Fin 10) (resume : Resume) (s : State) :
    (s.issueFrame f step resume).devInconsistent = s.devInconsistent := rfl
@[simp] theorem State.issueFrame_lastErr (f : Frame) (step : Fin 10) (resume : Resume) (s : State) :
    (s.issueFrame f step resume).lastErr = s.lastErr := rfl
@[simp] theorem State.issueFrame_lastField (f : Frame) (step : Fin 10) (resume : Resume) (s : State) :
    (s.issueFrame f step resume).lastField = s.lastField := rfl
@[simp] theorem State.issueFrame_imgLen (f : Frame) (step : Fin 10) (resume : Resume) (s : State) :
    (s.issueFrame f step resume).imgLen = s.imgLen := rfl
@[simp] theorem State.issueFrame_imgBuf (f : Frame) (step : Fin 10) (resume : Resume) (s : State) :
    (s.issueFrame f step resume).imgBuf = s.imgBuf := rfl
@[simp] theorem State.issueFrame_frameReg (f : Frame) (step : Fin 10) (resume : Resume) (s : State) :
    (s.issueFrame f step resume).frameReg = f := rfl
@[simp] theorem State.issueFrame_seqStep (f : Frame) (step : Fin 10) (resume : Resume) (s : State) :
    (s.issueFrame f step resume).seqStep = some step := rfl
@[simp] theorem State.issueFrame_busy (f : Frame) (step : Fin 10) (resume : Resume) (s : State) :
    (s.issueFrame f step resume).busy = s.busy := rfl
@[simp] theorem State.issueFrame_slotAssigned (f : Frame) (step : Fin 10) (resume : Resume) (s : State) :
    (s.issueFrame f step resume).slotAssigned = s.slotAssigned := rfl
@[simp] theorem State.issueFrame_inFlight (f : Frame) (step : Fin 10) (resume : Resume) (s : State) :
    (s.issueFrame f step resume).inFlight = some ⟨.feature f, resume⟩ := rfl
@[simp] theorem State.issueFrame_port (f : Frame) (step : Fin 10) (resume : Resume) (s : State) :
    (s.issueFrame f step resume).port = s.port := rfl
@[simp] theorem State.issueFrame_answers (f : Frame) (step : Fin 10) (resume : Resume) (s : State) :
    (s.issueFrame f step resume).answers = s.answers := rfl
@[simp] theorem State.issueFrame_commands (f : Frame) (step : Fin 10) (resume : Resume) (s : State) :
    (s.issueFrame f step resume).commands = s.commands := rfl
@[simp] theorem State.issueFrame_responses (f : Frame) (step : Fin 10) (resume : Resume) (s : State) :
    (s.issueFrame f step resume).responses = s.responses := rfl
@[simp] theorem State.issueFrame_trace (f : Frame) (step : Fin 10) (resume : Resume) (s : State) :
    (s.issueFrame f step resume).trace = s.trace := rfl
@[simp] theorem State.issueFrame_draws (f : Frame) (step : Fin 10) (resume : Resume) (s : State) :
    (s.issueFrame f step resume).draws = s.draws := rfl

/-! ### State.offer -/

@[simp] theorem State.offer_session (ws : List Word) (s : State) :
    (s.offer ws).session = s.session := rfl
@[simp] theorem State.offer_devInconsistent (ws : List Word) (s : State) :
    (s.offer ws).devInconsistent = s.devInconsistent := rfl
@[simp] theorem State.offer_lastErr (ws : List Word) (s : State) :
    (s.offer ws).lastErr = s.lastErr := rfl
@[simp] theorem State.offer_lastField (ws : List Word) (s : State) :
    (s.offer ws).lastField = s.lastField := rfl
@[simp] theorem State.offer_imgLen (ws : List Word) (s : State) :
    (s.offer ws).imgLen = s.imgLen := rfl
@[simp] theorem State.offer_imgBuf (ws : List Word) (s : State) :
    (s.offer ws).imgBuf = s.imgBuf := rfl
@[simp] theorem State.offer_frameReg (ws : List Word) (s : State) :
    (s.offer ws).frameReg = s.frameReg := rfl
@[simp] theorem State.offer_seqStep (ws : List Word) (s : State) :
    (s.offer ws).seqStep = s.seqStep := rfl
@[simp] theorem State.offer_busy (ws : List Word) (s : State) :
    (s.offer ws).busy = s.busy := rfl
@[simp] theorem State.offer_slotAssigned (ws : List Word) (s : State) :
    (s.offer ws).slotAssigned = s.slotAssigned := rfl
@[simp] theorem State.offer_inFlight (ws : List Word) (s : State) :
    (s.offer ws).inFlight = s.inFlight := rfl
@[simp] theorem State.offer_port (ws : List Word) (s : State) :
    (s.offer ws).port = s.port ++ ws := rfl
@[simp] theorem State.offer_answers (ws : List Word) (s : State) :
    (s.offer ws).answers = s.answers := rfl
@[simp] theorem State.offer_commands (ws : List Word) (s : State) :
    (s.offer ws).commands = s.commands := rfl
@[simp] theorem State.offer_responses (ws : List Word) (s : State) :
    (s.offer ws).responses = s.responses := rfl
@[simp] theorem State.offer_trace (ws : List Word) (s : State) :
    (s.offer ws).trace = s.trace := rfl
@[simp] theorem State.offer_draws (ws : List Word) (s : State) :
    (s.offer ws).draws = s.draws := rfl

/-! ### State.supply -/

@[simp] theorem State.supply_session (as : List Answer) (s : State) :
    (s.supply as).session = s.session := rfl
@[simp] theorem State.supply_devInconsistent (as : List Answer) (s : State) :
    (s.supply as).devInconsistent = s.devInconsistent := rfl
@[simp] theorem State.supply_lastErr (as : List Answer) (s : State) :
    (s.supply as).lastErr = s.lastErr := rfl
@[simp] theorem State.supply_lastField (as : List Answer) (s : State) :
    (s.supply as).lastField = s.lastField := rfl
@[simp] theorem State.supply_imgLen (as : List Answer) (s : State) :
    (s.supply as).imgLen = s.imgLen := rfl
@[simp] theorem State.supply_imgBuf (as : List Answer) (s : State) :
    (s.supply as).imgBuf = s.imgBuf := rfl
@[simp] theorem State.supply_frameReg (as : List Answer) (s : State) :
    (s.supply as).frameReg = s.frameReg := rfl
@[simp] theorem State.supply_seqStep (as : List Answer) (s : State) :
    (s.supply as).seqStep = s.seqStep := rfl
@[simp] theorem State.supply_busy (as : List Answer) (s : State) :
    (s.supply as).busy = s.busy := rfl
@[simp] theorem State.supply_slotAssigned (as : List Answer) (s : State) :
    (s.supply as).slotAssigned = s.slotAssigned := rfl
@[simp] theorem State.supply_inFlight (as : List Answer) (s : State) :
    (s.supply as).inFlight = s.inFlight := rfl
@[simp] theorem State.supply_port (as : List Answer) (s : State) :
    (s.supply as).port = s.port := rfl
@[simp] theorem State.supply_answers (as : List Answer) (s : State) :
    (s.supply as).answers = s.answers ++ as := rfl
@[simp] theorem State.supply_commands (as : List Answer) (s : State) :
    (s.supply as).commands = s.commands := rfl
@[simp] theorem State.supply_responses (as : List Answer) (s : State) :
    (s.supply as).responses = s.responses := rfl
@[simp] theorem State.supply_trace (as : List Answer) (s : State) :
    (s.supply as).trace = s.trace := rfl
@[simp] theorem State.supply_draws (as : List Answer) (s : State) :
    (s.supply as).draws = s.draws := rfl

/-! ### State.presentWord -/

@[simp] theorem State.presentWord_session (w : Word) (s : State) :
    (s.presentWord w).session = s.session := rfl
@[simp] theorem State.presentWord_devInconsistent (w : Word) (s : State) :
    (s.presentWord w).devInconsistent = s.devInconsistent := rfl
@[simp] theorem State.presentWord_lastErr (w : Word) (s : State) :
    (s.presentWord w).lastErr = s.lastErr := rfl
@[simp] theorem State.presentWord_lastField (w : Word) (s : State) :
    (s.presentWord w).lastField = s.lastField := rfl
@[simp] theorem State.presentWord_imgLen (w : Word) (s : State) :
    (s.presentWord w).imgLen = s.imgLen := rfl
@[simp] theorem State.presentWord_imgBuf (w : Word) (s : State) :
    (s.presentWord w).imgBuf = s.imgBuf := rfl
@[simp] theorem State.presentWord_frameReg (w : Word) (s : State) :
    (s.presentWord w).frameReg = s.frameReg := rfl
@[simp] theorem State.presentWord_seqStep (w : Word) (s : State) :
    (s.presentWord w).seqStep = s.seqStep := rfl
@[simp] theorem State.presentWord_busy (w : Word) (s : State) :
    (s.presentWord w).busy = false := rfl
@[simp] theorem State.presentWord_slotAssigned (w : Word) (s : State) :
    (s.presentWord w).slotAssigned = s.slotAssigned := rfl
@[simp] theorem State.presentWord_inFlight (w : Word) (s : State) :
    (s.presentWord w).inFlight = none := rfl
@[simp] theorem State.presentWord_port (w : Word) (s : State) :
    (s.presentWord w).port = w :: s.port.tail := rfl
@[simp] theorem State.presentWord_answers (w : Word) (s : State) :
    (s.presentWord w).answers = s.answers := rfl
@[simp] theorem State.presentWord_commands (w : Word) (s : State) :
    (s.presentWord w).commands = s.commands := rfl
@[simp] theorem State.presentWord_responses (w : Word) (s : State) :
    (s.presentWord w).responses = s.responses := rfl
@[simp] theorem State.presentWord_trace (w : Word) (s : State) :
    (s.presentWord w).trace = s.trace := rfl
@[simp] theorem State.presentWord_draws (w : Word) (s : State) :
    (s.presentWord w).draws = s.draws := rfl

/-! ### State.finishAbort -/

@[simp] theorem State.finishAbort_session (index : Fin 10) (dirty : Bool) (s : State) :
    (s.finishAbort index dirty).session = .failed := rfl
@[simp] theorem State.finishAbort_devInconsistent (index : Fin 10) (dirty : Bool) (s : State) :
    (s.finishAbort index dirty).devInconsistent = (s.devInconsistent || dirty) := rfl
@[simp] theorem State.finishAbort_lastErr (index : Fin 10) (dirty : Bool) (s : State) :
    (s.finishAbort index dirty).lastErr = .transportError := rfl
@[simp] theorem State.finishAbort_lastField (index : Fin 10) (dirty : Bool) (s : State) :
    (s.finishAbort index dirty).lastField = .noField := rfl
@[simp] theorem State.finishAbort_imgLen (index : Fin 10) (dirty : Bool) (s : State) :
    (s.finishAbort index dirty).imgLen = s.imgLen := rfl
@[simp] theorem State.finishAbort_imgBuf (index : Fin 10) (dirty : Bool) (s : State) :
    (s.finishAbort index dirty).imgBuf = s.imgBuf := rfl
@[simp] theorem State.finishAbort_frameReg (index : Fin 10) (dirty : Bool) (s : State) :
    (s.finishAbort index dirty).frameReg = s.frameReg := rfl
@[simp] theorem State.finishAbort_seqStep (index : Fin 10) (dirty : Bool) (s : State) :
    (s.finishAbort index dirty).seqStep = none := rfl
@[simp] theorem State.finishAbort_busy (index : Fin 10) (dirty : Bool) (s : State) :
    (s.finishAbort index dirty).busy = false := rfl
@[simp] theorem State.finishAbort_slotAssigned (index : Fin 10) (dirty : Bool) (s : State) :
    (s.finishAbort index dirty).slotAssigned = s.slotAssigned := rfl
@[simp] theorem State.finishAbort_inFlight (index : Fin 10) (dirty : Bool) (s : State) :
    (s.finishAbort index dirty).inFlight = s.inFlight := rfl
@[simp] theorem State.finishAbort_port (index : Fin 10) (dirty : Bool) (s : State) :
    (s.finishAbort index dirty).port = s.port := rfl
@[simp] theorem State.finishAbort_answers (index : Fin 10) (dirty : Bool) (s : State) :
    (s.finishAbort index dirty).answers = s.answers := rfl
@[simp] theorem State.finishAbort_commands (index : Fin 10) (dirty : Bool) (s : State) :
    (s.finishAbort index dirty).commands = s.commands := rfl
@[simp] theorem State.finishAbort_responses (index : Fin 10) (dirty : Bool) (s : State) :
    (s.finishAbort index dirty).responses = s.responses ++ [⟨.transportError, .noField, transportErrorData index (s.devInconsistent || dirty)⟩] := rfl
@[simp] theorem State.finishAbort_trace (index : Fin 10) (dirty : Bool) (s : State) :
    (s.finishAbort index dirty).trace = s.trace := rfl
@[simp] theorem State.finishAbort_draws (index : Fin 10) (dirty : Bool) (s : State) :
    (s.finishAbort index dirty).draws = s.draws := rfl

/-! ### State.finishClose -/

@[simp] theorem State.finishClose_session (s : State) :
    s.finishClose.session = .unopened := rfl
@[simp] theorem State.finishClose_devInconsistent (s : State) :
    s.finishClose.devInconsistent = s.devInconsistent := rfl
@[simp] theorem State.finishClose_lastErr (s : State) :
    s.finishClose.lastErr = .ok := rfl
@[simp] theorem State.finishClose_lastField (s : State) :
    s.finishClose.lastField = .noField := rfl
@[simp] theorem State.finishClose_imgLen (s : State) :
    s.finishClose.imgLen = s.imgLen := rfl
@[simp] theorem State.finishClose_imgBuf (s : State) :
    s.finishClose.imgBuf = s.imgBuf := rfl
@[simp] theorem State.finishClose_frameReg (s : State) :
    s.finishClose.frameReg = s.frameReg := rfl
@[simp] theorem State.finishClose_seqStep (s : State) :
    s.finishClose.seqStep = s.seqStep := rfl
@[simp] theorem State.finishClose_busy (s : State) :
    s.finishClose.busy = false := rfl
@[simp] theorem State.finishClose_slotAssigned (s : State) :
    s.finishClose.slotAssigned = s.slotAssigned := rfl
@[simp] theorem State.finishClose_inFlight (s : State) :
    s.finishClose.inFlight = s.inFlight := rfl
@[simp] theorem State.finishClose_port (s : State) :
    s.finishClose.port = s.port := rfl
@[simp] theorem State.finishClose_answers (s : State) :
    s.finishClose.answers = s.answers := rfl
@[simp] theorem State.finishClose_commands (s : State) :
    s.finishClose.commands = s.commands := rfl
@[simp] theorem State.finishClose_responses (s : State) :
    s.finishClose.responses = s.responses ++ [⟨.ok, .noField, 0⟩] := rfl
@[simp] theorem State.finishClose_trace (s : State) :
    s.finishClose.trace = s.trace := rfl
@[simp] theorem State.finishClose_draws (s : State) :
    s.finishClose.draws = s.draws := rfl

/-! ### State.commit -/

@[simp] theorem State.commit_session (s : State) :
    s.commit.session = .committed := rfl
@[simp] theorem State.commit_devInconsistent (s : State) :
    s.commit.devInconsistent = false := rfl
@[simp] theorem State.commit_lastErr (s : State) :
    s.commit.lastErr = .ok := rfl
@[simp] theorem State.commit_lastField (s : State) :
    s.commit.lastField = .noField := rfl
@[simp] theorem State.commit_imgLen (s : State) :
    s.commit.imgLen = s.imgLen := rfl
@[simp] theorem State.commit_imgBuf (s : State) :
    s.commit.imgBuf = s.imgBuf := rfl
@[simp] theorem State.commit_frameReg (s : State) :
    s.commit.frameReg = s.frameReg := rfl
@[simp] theorem State.commit_seqStep (s : State) :
    s.commit.seqStep = none := rfl
@[simp] theorem State.commit_busy (s : State) :
    s.commit.busy = false := rfl
@[simp] theorem State.commit_slotAssigned (s : State) :
    s.commit.slotAssigned = s.slotAssigned := rfl
@[simp] theorem State.commit_inFlight (s : State) :
    s.commit.inFlight = s.inFlight := rfl
@[simp] theorem State.commit_port (s : State) :
    s.commit.port = s.port := rfl
@[simp] theorem State.commit_answers (s : State) :
    s.commit.answers = s.answers := rfl
@[simp] theorem State.commit_commands (s : State) :
    s.commit.commands = s.commands := rfl
@[simp] theorem State.commit_responses (s : State) :
    s.commit.responses = s.responses ++ [⟨.ok, .noField, 0⟩] := rfl
@[simp] theorem State.commit_trace (s : State) :
    s.commit.trace = s.trace := rfl
@[simp] theorem State.commit_draws (s : State) :
    s.commit.draws = s.draws := rfl

/-! ### Errors and OK are responses -/

@[simp] theorem State.raise_eq (code : RspCode) (field : FieldCode) (data : Word) (s : State) :
    s.raise code field data = s.respond code field data := rfl
@[simp] theorem State.respondOk_eq (data : Word) (s : State) : s.respondOk data = s.respond .ok .noField data := rfl
@[simp] theorem State.raiseIllegal_eq (s : State) : s.raiseIllegal = s.respond .illegalCommand .noField 0 := rfl
@[simp] theorem State.raiseValidation_eq (bad : FieldCode × Byte) (s : State) :
    s.raiseValidation bad = s.respond .validationError bad.1 (bad.2.setWidth 64) := rfl
@[simp] theorem State.raiseLength_eq (s : State) :
    s.raiseLength = s.respond .lengthError .noField (s.imgLenBits.setWidth 64) := rfl
@[simp] theorem State.raiseState_eq (s : State) : s.raiseState = s.respond .stateError .noField 0 := rfl
@[simp] theorem State.abort_eq (index : Fin 10) (dirty : Bool) (s : State) :
    s.abort index dirty = s.issue .close (.aborting index dirty) := rfl

end Sys2Proof.Machine
end

