-- ==== Sys2Proof/Laws/Operands.lean ====
section
/-! SUPPORT. Operand checks: the machine's order of checks finds the first operand outside its legal set (R74, R106), and the
arithmetic of the checksum and of the slot mux. -/

namespace Sys2Proof.Machine

/-- The recognised modes are the legal set of the mode field. -/
theorem allows_mode (b : Byte) : FieldCode.allows .mode b = decide (b ∈ legalModes) := by
  revert b; decide

/-- The recognised kinds are the legal set of the kind field. -/
theorem allows_kind (b : Byte) : FieldCode.allows .kind b = decide (b ∈ legalKinds) := by
  revert b; decide

/-- validate_frame is the first failing check of an ENCODE_FRAME (R106). -/
theorem validateFrame_eq (kind mode p1 p2 color flag : Byte) :
    validateFrame kind mode p1 p2 color flag =
      (Instr.encodeFrame kind mode p1 p2 color flag).checksInOrder.find? (fun c => !c.1.allows c.2) := by
  unfold validateFrame
  simp only [Instr.checksInOrder, List.find?, allows_mode, allows_kind]
  simp only [FieldCode.allows, BitVec.le_def]
  simp only [← Nat.not_lt]
  by_cases h1 : 10 < p1.toNat <;> by_cases h2 : 51 < p2.toNat <;> by_cases h3 : 1 < flag.toNat <;>
    by_cases h4 : mode ∈ legalModes <;> by_cases h5 : kind ∈ legalKinds <;> by_cases h6 : 7 < color.toNat <;>
    simp [h1, h2, h3, h4, h5, h6]

/-- validate_frame of APPLY_PRESET, kind and flag being fixed and legal (R175). -/
theorem validatePreset_eq (mode speed brightness color : Byte) :
    validateFrame Kind.preset.toByte mode speed brightness color 0 =
      (Instr.applyPreset mode speed brightness color).checksInOrder.find? (fun c => !c.1.allows c.2) := by
  have hf : FieldCode.allows .flag 0 = true := by decide
  have hk : FieldCode.allows .kind Kind.preset.toByte = true := by decide
  rw [validateFrame_eq]
  simp only [Instr.checksInOrder, List.find?, hf, hk, Bool.not_true]

/-- The check of present is the first failing check of an ENCODE_COLOR (R111). -/
theorem validatePresent_eq (r g b present : Byte) :
    validatePresent present = (Instr.encodeColor r g b present).checksInOrder.find? (fun c => !c.1.allows c.2) := by
  unfold validatePresent
  simp only [Instr.checksInOrder, List.find?, FieldCode.allows, BitVec.le_def]
  simp only [← Nat.not_lt]
  by_cases h1 : 1 < present.toNat <;> simp [h1]

/-- Slot then present are the checks of an IMG_WRITE_SLOT (R133). -/
theorem validateSlot_eq (slot r g b present : Byte) :
    validateSlot slot present =
      (Instr.imgWriteSlot slot r g b present).checksInOrder.find? (fun c => !c.1.allows c.2) := by
  unfold validateSlot
  rw [validatePresent_eq r g b]
  simp only [Instr.checksInOrder, List.find?, FieldCode.allows, BitVec.le_def]
  simp only [← Nat.not_lt]
  by_cases h1 : slot.toNat < 1 <;> by_cases h2 : 128 < slot.toNat <;> simp [h1, h2]

/-- An instruction is well-formed exactly when no check fails. -/
theorem wellFormed_iff (i : Instr) :
    i.wellFormed = true ↔ i.checksInOrder.find? (fun c => !c.1.allows c.2) = none := by
  rw [List.find?_eq_none]
  cases i <;> simp [Instr.wellFormed, Instr.fields, Instr.checksInOrder]
  all_goals tauto

/-- The checksum as a number (R100). -/
theorem checksum_toNat (kind mode p1 p2 color flag : Byte) :
    (checksum kind mode p1 p2 color flag).toNat =
      255 - (kind.toNat + mode.toNat + p1.toNat + p2.toNat + color.toNat + flag.toNat) % 256 := by
  unfold checksum
  rw [BitVec.toNat_ofInt]
  omega

/-- The slot mux for a slot number (R51). -/
theorem recordAddr_eq {slot : Byte} (h1 : 1 ≤ slot.toNat) (h2 : slot.toNat ≤ 128) :
    recordAddr slot = 4 * (slot.toNat - 1) := by
  have h : (slot - 1).toNat = slot.toNat - 1 := by
    rw [BitVec.toNat_sub]
    simp
    omega
  rw [recordAddr, h]
  omega

@[simp] theorem colorRecord_length (r g b present : Byte) : (colorRecord r g b present).length = 4 := by
  unfold colorRecord; split <;> rfl

end Sys2Proof.Machine
end

