-- ==== Sys2Proof/Laws/Memory.lean ====
section
/-! SUPPORT. IMG_BUF: what a read sees after a write, that every write keeps the canonical form, and that two canonical
buffers which read alike are equal. -/

namespace Sys2Proof.Machine

@[simp] theorem Memory.read_nil (a : Nat) : Memory.read [] a = none := rfl

@[simp] theorem Memory.read_cons (c : Host.Cell) (m : Memory) (a : Nat) :
    Memory.read (c :: m) a = if c.1 = a then some c.2 else Memory.read m a := rfl

/-- A read after a write: the value written at that address, the old byte elsewhere. -/
@[simp] theorem Memory.read_write (m : Memory) (a : Nat) (v : Byte) (x : Nat) :
    (m.write a v).read x = if x = a then some v else m.read x := by
  induction m with
  | nil => simp [Memory.write, eq_comm]
  | cons c m ih =>
    simp only [Memory.write]
    split_ifs <;> simp_all [eq_comm]

/-- A read after MemWrite: the byte written where the address lies in the bytes written, the old byte elsewhere. -/
theorem Memory.read_writeBytes (m : Memory) (a : Nat) (bytes : List Byte) (x : Nat) :
    (m.writeBytes a bytes).read x = if a ≤ x ∧ x < a + bytes.length then bytes[x - a]? else m.read x := by
  induction bytes generalizing m a with
  | nil => simp [Memory.writeBytes]
  | cons v vs ih =>
    simp only [Memory.writeBytes, ih, Memory.read_write, List.length_cons]
    rcases Nat.lt_trichotomy x a with h | h | h
    · rw [if_neg (by omega), if_neg (by omega), if_neg (by omega)]
    · subst h; simp
    · by_cases h2 : x < a + (vs.length + 1)
      · rw [if_pos (by omega), if_pos (by omega), show x - a = (x - (a + 1)) + 1 by omega, List.getElem?_cons_succ]
      · rw [if_neg (by omega), if_neg (by omega), if_neg (by omega)]

theorem Memory.read_writeBytes_outside {m : Memory} {a x : Nat} {bytes : List Byte}
    (h : x < a ∨ a + bytes.length ≤ x) : (m.writeBytes a bytes).read x = m.read x := by
  rw [Memory.read_writeBytes, if_neg (by omega)]

/-- The addresses listed after a write are the old ones and the one written. -/
theorem Memory.mem_write {m : Memory} {a : Nat} {v : Byte} {c : Host.Cell} (h : c ∈ m.write a v) :
    c = (a, v) ∨ c ∈ m := by
  induction m with
  | nil => simpa [Memory.write] using h
  | cons d m ih =>
    simp only [Memory.write] at h
    split_ifs at h <;> simp only [List.mem_cons] at h ⊢ <;> tauto

theorem Memory.write_wf {m : Memory} {a : Nat} (v : Byte) (h : m.wf) (ha : a < 512) : (m.write a v).wf := by
  refine ⟨?_, fun c hc => ?_⟩
  · obtain ⟨hp, -⟩ := h
    induction m with
    | nil => simp [Memory.write]
    | cons d m ih =>
      rw [List.pairwise_cons] at hp
      simp only [Memory.write]
      split_ifs with h1 h2
      · refine List.pairwise_cons.2 ⟨fun c hc => ?_, List.pairwise_cons.2 hp⟩
        rcases List.mem_cons.1 hc with rfl | hc
        · exact h1
        · exact Nat.lt_trans h1 (hp.1 c hc)
      · exact List.pairwise_cons.2 ⟨fun c hc => by simpa [h2] using hp.1 c hc, hp.2⟩
      · refine List.pairwise_cons.2 ⟨fun c hc => ?_, ih hp.2⟩
        rcases Memory.mem_write hc with rfl | hc
        · show d.1 < a; omega
        · exact hp.1 c hc
  · rcases Memory.mem_write hc with rfl | hc
    · exact ⟨ha, by simp [Memory.unlisted]⟩
    · exact h.2 c hc

theorem Memory.writeBytes_wf {m : Memory} {a : Nat} (bytes : List Byte) (h : m.wf) (ha : a + bytes.length ≤ 512) :
    (m.writeBytes a bytes).wf := by
  induction bytes generalizing m a with
  | nil => exact h
  | cons v vs ih =>
    simp only [List.length_cons] at ha
    exact ih (Memory.write_wf v h (by omega)) (by omega)

theorem Memory.reset_wf : State.reset.imgBuf.wf := ⟨List.Pairwise.nil, by simp [State.reset]⟩

/-- An address below every listed one reads as unlisted. -/
theorem Memory.read_below {m : Memory} {a : Nat} (h : ∀ c ∈ m, a < c.1) : m.read a = none := by
  induction m with
  | nil => rfl
  | cons c m ih =>
    have hc := h c (by simp)
    rw [Memory.read_cons, if_neg (by omega)]
    exact ih fun d hd => h d (by simp [hd])

/-- Canonical buffers that read alike are equal. -/
theorem Memory.ext_read {m n : Memory} (hm : m.wf) (hn : n.wf) (h : ∀ a, m.read a = n.read a) : m = n := by
  obtain ⟨hm, -⟩ := hm
  obtain ⟨hn, -⟩ := hn
  induction m generalizing n with
  | nil =>
    cases n with
    | nil => rfl
    | cons d n => simpa using h d.1
  | cons c m ih =>
    cases n with
    | nil => simpa using h c.1
    | cons d n =>
      rw [List.pairwise_cons] at hm hn
      have hc := h c.1
      have hd := h d.1
      rw [Memory.read_cons, if_pos rfl, Memory.read_cons] at hc
      rw [Memory.read_cons, Memory.read_cons, if_pos rfl] at hd
      have hcd : c.1 = d.1 := by
        by_contra hne
        rcases Nat.lt_or_gt_of_ne hne with hlt | hlt
        · rw [if_neg (by omega), Memory.read_below fun e he => Nat.lt_trans hlt (hn.1 e he)] at hc
          simp at hc
        · rw [if_neg (by omega), Memory.read_below fun e he => Nat.lt_trans hlt (hm.1 e he)] at hd
          simp at hd
      have hv : c.2 = d.2 := by simpa [hcd] using hc
      have hce : c = d := Prod.ext hcd hv
      subst hce
      refine congrArg _ (ih (fun a => ?_) hm.2 hn.2)
      have ha := h a
      rw [Memory.read_cons, Memory.read_cons] at ha
      by_cases hca : c.1 = a
      · subst hca
        rw [Memory.read_below hm.1, Memory.read_below hn.1]
      · simpa [hca] using ha

/-! ### Reading bytes for a command -/

/-- Reading a written byte gives it and changes nothing. -/
theorem State.readByte_written {s : State} {a : Nat} {v : Byte} (h : s.imgBuf.read a = some v) :
    s.readByte a = (v, s) := by
  simp [State.readByte, h]

/-- Reading a byte nothing has written gives a fresh free value (R141). -/
theorem State.readByte_unwritten {s : State} {a : Nat} (h : s.imgBuf.read a = none) :
    s.readByte a = (Config.imgDraw s.draws, { s with draws := s.draws + 1 }) := by
  simp [State.readByte, h]

/-- A read changes at most the draw counter. -/
theorem State.readByte_state (a : Nat) (s : State) : ∃ n, (s.readByte a).2 = { s with draws := n } := by
  cases h : s.imgBuf.read a with
  | some v => exact ⟨s.draws, by rw [State.readByte_written h]⟩
  | none => exact ⟨s.draws + 1, by rw [State.readByte_unwritten h]⟩

theorem State.memRead_state (a n : Nat) (s : State) : ∃ k, (s.memRead a n).2 = { s with draws := k } := by
  induction n generalizing a s with
  | zero => exact ⟨s.draws, rfl⟩
  | succ n ih =>
    obtain ⟨k, hk⟩ := State.readByte_state a s
    obtain ⟨k', hk'⟩ := ih (a + 1) (s.readByte a).2
    rw [hk] at hk'
    exact ⟨k', by simpa only [State.memRead, hk] using hk'⟩

@[simp] theorem State.memRead_length (a n : Nat) (s : State) : (s.memRead a n).1.length = n := by
  induction n generalizing a s with
  | zero => rfl
  | succ n ih => simp [State.memRead, ih]

/-- Where every byte read has been written, MemRead gives the bytes of the buffer and changes nothing (R50). -/
theorem State.memRead_written {s : State} {a n : Nat} (h : ∀ x, a ≤ x → x < a + n → (s.imgBuf.read x).isSome = true) :
    s.memRead a n = ((List.range n).map fun j => (s.imgBuf.read (a + j)).getD 0, s) := by
  induction n generalizing a with
  | zero => rfl
  | succ n ih =>
    obtain ⟨v, hv⟩ := Option.isSome_iff_exists.1 (h a (by omega) (by omega))
    have ih' := ih (a := a + 1) fun x hx hx' => h x (by omega) (by omega)
    rw [List.range_succ_eq_map]
    simp only [State.memRead, State.readByte_written hv, ih', List.map_cons, List.map_map, Nat.add_zero, hv,
      Option.getD_some, Prod.mk.injEq, and_true, List.cons.injEq, true_and]
    refine List.map_congr_left fun j _ => ?_
    simp only [Function.comp_apply, Nat.succ_eq_add_one]
    rw [show a + 1 + j = a + (j + 1) by omega]

end Sys2Proof.Machine
end

