-- ==== Sys2Proof/Laws/Transport.lean ====
section
/-! SUPPORT. The transport engine: what issuing a call does, what one answer does to a command in progress, and the
induction over the answers at hand. Later proofs cite these and do not unfold the engine. -/

namespace Sys2Proof.Machine

/-- Every instruction answers a next state: errors are responses (R208). -/
theorem exec_next (i : Instr) (s : State) : ∃ t, exec i s = .next t := by
  cases i <;> simp only [exec, execEncodeFrame, execEncodeColor, execImgClear, execImgWriteSlot, execImgLoadBegin,
    execImgLoadByte, execImgReadByte, execSessionOpen, execSessionClose, execApplyPreset, execApplyCustom,
    execReadStatus]
  all_goals (repeat' split) <;> exact ⟨_, rfl⟩

/-- Issuing a chunk write: 64 bytes in flight, SEQ_STEP set, nothing else but the draw counter touched. -/
theorem State.issueChunk_eq (c : Nat) (i : Fin 10) (s : State) :
    ∃ k d, d.length = 64 ∧ s.issueChunk c i =
      { s with seqStep := some i, inFlight := some ⟨.write d, .upload i⟩, draws := k } := by
  obtain ⟨k, hk⟩ := State.memRead_state (chunkAddr c) 64 { s with seqStep := some i }
  refine ⟨k, (State.memRead (chunkAddr c) 64 { s with seqStep := some i }).1, State.memRead_length _ _ _, ?_⟩
  simp only [State.issueChunk, State.issue, hk]

/-- Issuing a chunk write of an image all of whose bytes are written: the bytes of IMG_BUF, no draw. -/
theorem State.issueChunk_written {c : Nat} (i : Fin 10) {s : State}
    (h : ∀ x, 64 * c ≤ x → x < 64 * c + 64 → (s.imgBuf.read x).isSome = true) :
    s.issueChunk c i = { s with
      seqStep := some i
      inFlight := some ⟨.write ((List.range 64).map fun j => (s.imgBuf.read (64 * c + j)).getD 0), .upload i⟩ } := by
  have hr : State.memRead (chunkAddr c) 64 { s with seqStep := some i } =
      ((List.range 64).map fun j => (s.imgBuf.read (64 * c + j)).getD 0, { s with seqStep := some i }) :=
    State.memRead_written (s := { s with seqStep := some i }) h
  simp only [State.issueChunk, State.issue, hr]

/-- Issuing call i of APPLY_CUSTOM writes FRAME_REG, SEQ_STEP and the request in flight, and touches nothing else but the
draw counter (R180). -/
theorem State.uploadCall_eq (i : Fin 10) (s : State) :
    ∃ f q k, s.uploadCall i = { s with frameReg := f, seqStep := some i, inFlight := some ⟨q, .upload i⟩, draws := k } ∧
      ((i = 0 ∧ f = beginFrame ∧ q = .feature f) ∨ (i = 9 ∧ f = commitFrame ∧ q = .feature f) ∨
        (i ≠ 0 ∧ i ≠ 9 ∧ f = s.frameReg ∧ ∃ d, q = .write d ∧ d.length = 64)) := by
  unfold State.uploadCall
  split_ifs with h0 h9
  · subst h0; exact ⟨_, _, s.draws, rfl, .inl ⟨rfl, rfl, rfl⟩⟩
  · subst h9; exact ⟨_, _, s.draws, rfl, .inr (.inl ⟨rfl, rfl, rfl⟩)⟩
  · obtain ⟨k, d, hd, he⟩ := State.issueChunk_eq (i.val - 1) i s
    exact ⟨s.frameReg, _, k, he, .inr (.inr ⟨h0, h9, rfl, d, rfl, hd⟩)⟩

/-- What takeAnswer hands to the command: the pair in the trace, nothing in flight (R161). -/
theorem State.takeAnswer_eq (f : InFlight) (a : Answer) (s : State) :
    s.takeAnswer f a = State.goOn f.resume (f.request.outcome a)
      { s with inFlight := none, trace := s.trace ++ [⟨f.request, f.request.outcome a⟩] } := rfl

/-- A command that goes on either ends, with one response and BUSY 0, or has issued its next call. -/
structure State.Ended (s t : State) : Prop where
  idle : t.inFlight = none
  busy : t.busy = false
  response : ∃ r, t.responses = s.responses ++ [r] ∧ t.lastErr = r.code ∧ t.lastField = r.field

structure State.Continues (s t : State) : Prop where
  inFlight : ∃ g, t.inFlight = some g
  busy : t.busy = s.busy
  responses : t.responses = s.responses
  lastErr : t.lastErr = s.lastErr
  lastField : t.lastField = s.lastField

theorem State.ended_respond {s t : State} (code : RspCode) (field : FieldCode) (data : Word)
    (hidle : t.inFlight = none) (hr : t.responses = s.responses) : State.Ended s (t.respond code field data) :=
  ⟨hidle, rfl, ⟨⟨code, field, data⟩, by simp [hr], rfl, rfl⟩⟩

theorem State.continues_uploadCall (i : Fin 10) (s : State) : State.Continues s (s.uploadCall i) := by
  obtain ⟨f, q, k, he, -⟩ := State.uploadCall_eq i s
  rw [he]
  exact ⟨⟨_, rfl⟩, rfl, rfl, rfl, rfl⟩

/-- Going on with an outcome ends the command or issues its next call. -/
theorem State.goOn_cases (k : Resume) (o : CallOutcome) {s : State} (hidle : s.inFlight = none) :
    State.Ended s (s.goOn k o) ∨ State.Continues s (s.goOn k o) := by
  have hissue : ∀ q k', State.Continues s (s.issue q k') := fun q k' => ⟨⟨_, rfl⟩, rfl, rfl, rfl, rfl⟩
  cases k with
  | opening => left; cases o <;> exact State.ended_respond _ _ _ hidle rfl
  | closing => exact .inl (State.ended_respond _ _ _ hidle rfl)
  | preset =>
    simp only [State.goOn, State.afterPreset]
    split
    · exact .inr (hissue _ _)
    · exact .inl (State.ended_respond _ _ _ hidle rfl)
  | upload i =>
    simp only [State.goOn, State.afterUpload]
    split_ifs
    · exact .inr (hissue _ _)
    · exact .inl (State.ended_respond _ _ _ hidle rfl)
    · obtain ⟨hf, hb, hr, he, hl⟩ := State.continues_uploadCall 1 { s with session := .uploading }
      exact .inr ⟨hf, hb, hr, he, hl⟩
    · exact .inr (State.continues_uploadCall _ _)
  | aborting i dirty => exact .inl (State.ended_respond _ _ _ hidle rfl)

/-- An answer ends the command in progress or leaves it at its next call. -/
theorem State.takeAnswer_cases (f : InFlight) (a : Answer) (s : State) :
    State.Ended s (s.takeAnswer f a) ∨ State.Continues s (s.takeAnswer f a) := by
  rw [State.takeAnswer_eq]
  rcases State.goOn_cases f.resume (f.request.outcome a)
      (s := { s with inFlight := none, trace := s.trace ++ [⟨f.request, f.request.outcome a⟩] }) rfl with h | h
  · exact .inl ⟨h.idle, h.busy, h.response⟩
  · exact .inr ⟨h.inFlight, h.busy, h.responses, h.lastErr, h.lastField⟩

/-- What the serializer never touches: IMG_BUF, IMG_LEN, SLOT_ASSIGNED, the port and the accepted commands; the answers
are the caller's to keep. -/
structure State.SameBackground (s t : State) : Prop where
  imgBuf : t.imgBuf = s.imgBuf
  imgLen : t.imgLen = s.imgLen
  slotAssigned : t.slotAssigned = s.slotAssigned
  port : t.port = s.port
  commands : t.commands = s.commands

theorem State.SameBackground.trans {s t u : State} (h : State.SameBackground s t) (h' : State.SameBackground t u) :
    State.SameBackground s u :=
  ⟨h'.imgBuf.trans h.imgBuf, h'.imgLen.trans h.imgLen, h'.slotAssigned.trans h.slotAssigned, h'.port.trans h.port,
    h'.commands.trans h.commands⟩

theorem State.background_uploadCall (i : Fin 10) (s : State) : State.SameBackground s (s.uploadCall i) := by
  obtain ⟨f, q, k, he, -⟩ := State.uploadCall_eq i s
  rw [he]
  exact ⟨rfl, rfl, rfl, rfl, rfl⟩

theorem State.background_takeAnswer (f : InFlight) (a : Answer) (s : State) :
    State.SameBackground s (s.takeAnswer f a) := by
  rw [State.takeAnswer_eq]
  generalize f.request.outcome a = o
  cases f.resume with
  | opening => cases o <;> exact ⟨rfl, rfl, rfl, rfl, rfl⟩
  | closing => exact ⟨rfl, rfl, rfl, rfl, rfl⟩
  | preset => simp only [State.goOn, State.afterPreset]; split <;> exact ⟨rfl, rfl, rfl, rfl, rfl⟩
  | upload i =>
    simp only [State.goOn, State.afterUpload]
    split_ifs
    · exact ⟨rfl, rfl, rfl, rfl, rfl⟩
    · exact ⟨rfl, rfl, rfl, rfl, rfl⟩
    · have h := State.background_uploadCall 1
        { s with inFlight := none, trace := s.trace ++ [⟨f.request, o⟩], session := .uploading }
      exact ⟨h.imgBuf, h.imgLen, h.slotAssigned, h.port, h.commands⟩
    · have h := State.background_uploadCall (i + 1)
        { s with inFlight := none, trace := s.trace ++ [⟨f.request, o⟩] }
      exact ⟨h.imgBuf, h.imgLen, h.slotAssigned, h.port, h.commands⟩
  | aborting i dirty => exact ⟨rfl, rfl, rfl, rfl, rfl⟩

/-- What setting the answers and taking one answer keep, taking all of them keeps. -/
theorem State.takeAnswers_keeps {P : State → Prop} (hset : ∀ s as, P s → P { s with answers := as })
    (htake : ∀ s f a, P s → s.inFlight = some f → P (s.takeAnswer f a)) (as : List Answer) (s : State) (h : P s) :
    P (s.takeAnswers as) := by
  induction as generalizing s with
  | nil => exact hset s [] h
  | cons a as ih =>
    simp only [State.takeAnswers]
    split
    · exact hset s _ h
    · next f hf => exact ih _ (htake s f a h hf)

theorem State.background_runCalls (s : State) : State.SameBackground s s.runCalls :=
  State.takeAnswers_keeps (P := fun t => State.SameBackground s t)
    (fun _ _ h => ⟨h.imgBuf, h.imgLen, h.slotAssigned, h.port, h.commands⟩)
    (fun t f a h _ => h.trans (State.background_takeAnswer f a t)) s.answers s ⟨rfl, rfl, rfl, rfl, rfl⟩

/-- Running the calls of a command in progress ends it or leaves it waiting at a call. -/
theorem State.runCalls_cases {s : State} {f : InFlight} (hf : s.inFlight = some f) :
    State.Ended s s.runCalls ∨ State.Continues s s.runCalls := by
  have hgo : ∀ (as : List Answer) (t : State), (State.Ended s t ∨ State.Continues s t) →
      State.Ended s (t.takeAnswers as) ∨ State.Continues s (t.takeAnswers as) := by
    intro as t h
    refine State.takeAnswers_keeps (P := fun t => State.Ended s t ∨ State.Continues s t) ?_ ?_ as t h
    · rintro u as (h | h)
      · exact .inl ⟨h.idle, h.busy, h.response⟩
      · exact .inr ⟨h.inFlight, h.busy, h.responses, h.lastErr, h.lastField⟩
    · rintro u g a (h | h) hg
      · rw [h.idle] at hg; cases hg
      · rcases State.takeAnswer_cases g a u with h' | h'
        · exact .inl ⟨h'.idle, h'.busy, by simpa only [h.responses] using h'.response⟩
        · exact .inr ⟨h'.inFlight, h'.busy.trans h.busy, h'.responses.trans h.responses, h'.lastErr.trans h.lastErr,
            h'.lastField.trans h.lastField⟩
  exact hgo _ _ (.inr ⟨⟨f, hf⟩, rfl, rfl, rfl, rfl⟩)

/-- Replace the answers at hand. -/
def State.withAnswers (as : List Answer) (s : State) : State := { s with answers := as }

theorem State.readByte_withAnswers (x : Nat) (as : List Answer) (s : State) :
    (s.withAnswers as).readByte x = ((s.readByte x).1, (s.readByte x).2.withAnswers as) := by
  simp only [State.readByte, State.withAnswers]
  split <;> rfl

theorem State.memRead_withAnswers (x n : Nat) (as : List Answer) (s : State) :
    (s.withAnswers as).memRead x n = ((s.memRead x n).1, (s.memRead x n).2.withAnswers as) := by
  induction n generalizing x s with
  | zero => rfl
  | succ n ih => simp only [State.memRead, State.readByte_withAnswers, ih]

theorem State.uploadCall_withAnswers (i : Fin 10) (as : List Answer) (s : State) :
    (s.withAnswers as).uploadCall i = (s.uploadCall i).withAnswers as := by
  unfold State.uploadCall
  split_ifs
  · rfl
  · rfl
  · have h := State.memRead_withAnswers (chunkAddr (i.val - 1)) 64 as { s with seqStep := some i }
    simp only [State.withAnswers] at h
    simp only [State.issueChunk, State.issue, State.withAnswers, h]

/-- The engine takes no notice of the answers field, which its caller sets. -/
theorem State.takeAnswer_withAnswers (f : InFlight) (a : Answer) (as : List Answer) (s : State) :
    (s.withAnswers as).takeAnswer f a = (s.takeAnswer f a).withAnswers as := by
  simp only [State.takeAnswer_eq]
  generalize f.request.outcome a = o
  cases f.resume with
  | opening => cases o <;> rfl
  | closing => rfl
  | preset => simp only [State.goOn, State.afterPreset]; split <;> rfl
  | upload i =>
    simp only [State.goOn, State.afterUpload]
    split_ifs
    · rfl
    · rfl
    · exact State.uploadCall_withAnswers 1 as
        { s with inFlight := none, trace := s.trace ++ [⟨f.request, o⟩], session := .uploading }
    · exact State.uploadCall_withAnswers (i + 1) as
        { s with inFlight := none, trace := s.trace ++ [⟨f.request, o⟩] }
  | aborting i dirty => rfl

theorem State.takeAnswers_withAnswers (bs as : List Answer) (s : State) :
    (s.withAnswers as).takeAnswers bs = s.takeAnswers bs := by
  induction bs generalizing s with
  | nil => rfl
  | cons b bs ih =>
    have hi : (s.withAnswers as).inFlight = s.inFlight := rfl
    simp only [State.takeAnswers, hi]
    cases s.inFlight with
    | none => rfl
    | some f => simp only [State.takeAnswer_withAnswers, ih]

/-- Answers in two portions do what they do in one (R161). -/
theorem State.takeAnswers_append (as bs : List Answer) (s : State) :
    s.takeAnswers (as ++ bs) = (s.takeAnswers as).takeAnswers ((s.takeAnswers as).answers ++ bs) := by
  induction as generalizing s with
  | nil => exact (State.takeAnswers_withAnswers bs [] s).symm
  | cons a as ih =>
    cases hf : s.inFlight with
    | none => simp [State.takeAnswers, hf]
    | some f => simpa [State.takeAnswers, hf] using ih _

end Sys2Proof.Machine
end

