-- ==== Sys2Proof/Laws/Exec.lean ====
section
/-! SUPPORT. What exec and step can do, said once: every other claim about all instructions or all steps splits on these
cases. -/

namespace Sys2Proof.Machine

/-- What a command that is no session command does: it writes at most FRAME_REG (ENCODE_FRAME alone), IMG_BUF and IMG_LEN
(with the shapes below) and the draw counter, and answers once. -/
theorem exec_other_command {i : Instr} (h : i.isSessionCommand = false) (s : State) :
    ∃ (u : State) (r : Response), exec i s = .next (if i = .readStatus then s.send r else u.respond r.code r.field r.data) ∧
      (∃ f m n k, u = { s with frameReg := f, imgBuf := m, imgLen := n, draws := k } ∧
        (i.opcode ≠ .encodeFrame → f = s.frameReg) ∧
        (i.writesImage = false → m = s.imgBuf ∧ (i ≠ .imgLoadBegin → n = s.imgLen))) := by
  cases i with
  | encodeFrame kind mode p1 p2 color flag =>
    simp only [exec, execEncodeFrame]
    split
    · next bad _ => exact ⟨s, ⟨.validationError, bad.1, bad.2.setWidth 64⟩, rfl, _, _, _, _, rfl, fun _ => rfl, fun _ => ⟨rfl, fun _ => rfl⟩⟩
    · exact ⟨_, ⟨.ok, .noField, _⟩, rfl, _, _, _, _, rfl, fun h => absurd rfl h, fun _ => ⟨rfl, fun _ => rfl⟩⟩
  | encodeColor r g b present =>
    simp only [exec, execEncodeColor]
    split
    · next bad _ => exact ⟨s, ⟨.validationError, bad.1, bad.2.setWidth 64⟩, rfl, _, _, _, _, rfl, fun _ => rfl, fun _ => ⟨rfl, fun _ => rfl⟩⟩
    · exact ⟨s, ⟨.ok, .noField, _⟩, rfl, _, _, _, _, rfl, fun _ => rfl, fun _ => ⟨rfl, fun _ => rfl⟩⟩
  | imgClear =>
    refine ⟨{ s.memWrite 0 (List.replicate 512 0) with imgLen := 512 }, ⟨.ok, .noField, 0⟩, ?_, s.frameReg,
      s.imgBuf.writeBytes 0 (List.replicate 512 0), 512, s.draws, ?_, fun _ => rfl, fun h => by cases h⟩
    · rw [if_neg (by decide)]
      simp only [exec, execImgClear, State.respondOk_eq]
    · simp only [State.memWrite]
  | imgWriteSlot slot r g b present =>
    simp only [exec, execImgWriteSlot]
    split
    · next bad _ => exact ⟨s, ⟨.validationError, bad.1, bad.2.setWidth 64⟩, rfl, _, _, _, _, rfl, fun _ => rfl, fun h => by cases h⟩
    · refine ⟨_, ⟨.ok, .noField, 0⟩, rfl, ?_⟩
      unfold State.writeSlot
      split
      · exact ⟨_, _, _, _, rfl, fun _ => rfl, fun h => by cases h⟩
      · exact ⟨_, _, _, _, rfl, fun _ => rfl, fun h => by cases h⟩
  | imgLoadBegin =>
    exact ⟨_, ⟨.ok, .noField, 0⟩, rfl, _, _, _, _, rfl, fun _ => rfl, fun _ => ⟨rfl, fun h => absurd rfl h⟩⟩
  | imgLoadByte data =>
    refine ⟨_, ⟨.ok, .noField, 0⟩, rfl, ?_⟩
    unfold State.loadByte
    split
    · exact ⟨_, _, _, _, rfl, fun _ => rfl, fun h => by cases h⟩
    · exact ⟨_, _, _, _, rfl, fun _ => rfl, fun h => by cases h⟩
  | imgReadByte addr =>
    obtain ⟨k, hk⟩ := State.readByte_state addr.toNat s
    exact ⟨(s.readByte addr.toNat).2, ⟨.ok, .noField, (s.readByte addr.toNat).1.setWidth 64⟩, rfl, _, _, _, _, hk, fun _ => rfl, fun _ => ⟨rfl, fun _ => rfl⟩⟩
  | readStatus => exact ⟨s, ⟨.ok, .noField, statusWord s⟩, rfl, _, _, _, _, rfl, fun _ => rfl, fun _ => ⟨rfl, fun _ => rfl⟩⟩
  | sessionOpen => cases h
  | sessionClose => cases h
  | applyPreset => cases h
  | applyCustom => cases h

/-- The errors a session command raises before any transport call, and a close with no handle to release. -/
inductive SessionOutcome (s : State) : Instr → State → Prop
  | error (i : Instr) (code : RspCode) (field : FieldCode) (data : Word) (h : code ≠ .ok) :
      SessionOutcome s i (s.respond code field data)
  | closeOnly (h : s.session = .failed ∨ s.session = .uploading) : SessionOutcome s .sessionClose s.finishClose
  | opening (h : s.session = .unopened ∨ s.session = .failed) :
      SessionOutcome s .sessionOpen (s.issue (.openDevice Config.device) .opening).runCalls
  | closing (h : s.session.owesClose = true) : SessionOutcome s .sessionClose (s.issue .close .closing).runCalls
  | preset (mode speed brightness color : Byte) (h : s.session = .opened)
      (hv : validateFrame Kind.preset.toByte mode speed brightness color 0 = none) :
      SessionOutcome s (.applyPreset mode speed brightness color)
        (s.issueFrame (presetFrame mode speed brightness color) 0 .preset).runCalls
  | upload (h : s.session = .opened) (hl : s.imgLen = 512) :
      SessionOutcome s .applyCustom (s.issueFrame beginFrame 0 (.upload 0)).runCalls

/-- What a session command does: an error before any call, a bare close, or its first call and then what the answers at
hand make of it. -/
theorem exec_session_command {i : Instr} (h : i.isSessionCommand = true) (s : State) :
    ∃ t, exec i s = .next t ∧ SessionOutcome s i t := by
  cases i with
  | sessionOpen =>
    simp only [exec, execSessionOpen]
    split
    · next h => exact ⟨_, rfl, .opening h⟩
    · exact ⟨_, rfl, .error _ .stateError .noField 0 (by decide)⟩
  | sessionClose =>
    simp only [exec, execSessionClose]
    split
    · exact ⟨_, rfl, .error _ .stateError .noField 0 (by decide)⟩
    · next h => exact ⟨_, rfl, .closing (by rw [h]; rfl)⟩
    · next h => exact ⟨_, rfl, .closing (by rw [h]; rfl)⟩
    · next h => exact ⟨_, rfl, .closing (by rw [h]; rfl)⟩
    · next h => exact ⟨_, rfl, .closeOnly (.inr h)⟩
    · next h => exact ⟨_, rfl, .closeOnly (.inl h)⟩
  | applyPreset mode speed brightness color =>
    simp only [exec, execApplyPreset]
    split
    · next bad _ => exact ⟨_, rfl, .error _ .validationError bad.1 _ (by decide)⟩
    · next hv =>
      split
      · next h => exact ⟨_, rfl, .preset mode speed brightness color h hv⟩
      · exact ⟨_, rfl, .error _ .stateError .noField 0 (by decide)⟩
  | applyCustom =>
    simp only [exec, execApplyCustom]
    split
    · exact ⟨_, rfl, .error _ .lengthError .noField _ (by decide)⟩
    · next hl =>
      split
      · next h => exact ⟨_, rfl, .upload h (by simpa using hl)⟩
      · exact ⟨_, rfl, .error _ .stateError .noField 0 (by decide)⟩
  | encodeFrame => cases h
  | encodeColor => cases h
  | imgClear => cases h
  | imgWriteSlot => cases h
  | imgLoadBegin => cases h
  | imgLoadByte => cases h
  | imgReadByte => cases h
  | readStatus => cases h

/-- What a step can do. -/
inductive StepCase (s : State) : Host.Outcome State Fault Refusal → Prop
  | inProgress (h : s.busy = true) : StepCase s (.next s.runCalls)
  | waits (h : s.busy = false) (hp : s.port = []) : StepCase s (.next s)
  | illegal (w : Word) (rest : List Word) (e : Illegal) (h : s.busy = false) (hp : s.port = w :: rest)
      (hd : decode w = .error e) : StepCase s (.next (s.accept w rest).raiseIllegal)
  | runs (w : Word) (rest : List Word) (i : Instr) (h : s.busy = false) (hp : s.port = w :: rest)
      (hd : decode w = .ok i) : StepCase s (exec i (s.accept w rest))

theorem step_cases (s : State) : StepCase s (step s) := by
  unfold step State.fetch
  cases hb : s.busy with
  | true => exact .inProgress hb
  | false =>
    cases hp : s.port with
    | nil => exact .waits hb hp
    | cons w rest =>
      cases hd : decode w with
      | error e => simpa [hd] using StepCase.illegal w rest e hb hp hd
      | ok i => simpa [hd] using StepCase.runs w rest i hb hp hd

end Sys2Proof.Machine
end

