-- ==== Sys2Proof/Laws/PerInstr.lean ====
section
/-! SUPPORT. A law per instruction: the word of an instruction lies in its own row of the opcode table (R72, R78). -/

namespace Sys2Proof.Laws.TableRow

/-- The instruction's word lies in its row of spec/opcode_table.json: (w & mask) == match. -/
def Statement (i : Instr) : Prop := i.opcode.row.selects (encode i) = true

theorem of_encoding (i : Instr) : Statement i :=
  (Opcode.row_selects _ _).2 ⟨lane_encode_7 i, zerosHold_encode i⟩

theorem encodeFrame (kind mode param1 param2 color flag : Byte) : Statement (.encodeFrame kind mode param1 param2 color flag) := of_encoding _
theorem encodeColor (r g b present : Byte) : Statement (.encodeColor r g b present) := of_encoding _
theorem imgClear : Statement (.imgClear) := of_encoding _
theorem imgWriteSlot (slot r g b present : Byte) : Statement (.imgWriteSlot slot r g b present) := of_encoding _
theorem imgLoadBegin : Statement (.imgLoadBegin) := of_encoding _
theorem imgLoadByte (data : Byte) : Statement (.imgLoadByte data) := of_encoding _
theorem imgReadByte (addr : Addr) : Statement (.imgReadByte addr) := of_encoding _
theorem sessionOpen : Statement (.sessionOpen) := of_encoding _
theorem sessionClose : Statement (.sessionClose) := of_encoding _
theorem applyPreset (mode speed brightness color : Byte) : Statement (.applyPreset mode speed brightness color) := of_encoding _
theorem applyCustom : Statement (.applyCustom) := of_encoding _
theorem readStatus : Statement (.readStatus) := of_encoding _

end Sys2Proof.Laws.TableRow
end

