-- ==== Sys2Proof/Tests/Slice0.lean ====
section
/-! SUPPORT. Tests. Expected values come from spec/95_test_vectors.md and the rules cited, none from the model. After them, a
state and operands that meet the hypotheses of each obligation that has any. -/

open Sys2Proof Sys2Proof.Machine

namespace Sys2Proof.Tests

/-! ### Helpers -/

/-- The test layout of 95 section 2.4: every slot assigned but 7 and 100. -/
def mask : BitVec 128 := 0xFFFFFFF7FFFFFFFFFFFFFFFFFFFFFFBF

/-- The block right after it accepted a command, in the given session, with the given answers at hand. -/
def ready (session : Session) (answers : List Answer) : State :=
  { State.reset with slotAssigned := mask, session := session, answers := answers, busy := true, commands := [0] }

/-- The next state, where there is one. -/
def after : Result → State
  | .next t => t
  | .fault _ => State.reset
  | .refused _ => State.reset

/-- The response to an instruction as the triple of the vectors: code, field, data. -/
def answer (i : Instr) (s : State) : Option (BitVec 4 × BitVec 4 × Word) :=
  (after (exec i s)).responses.getLast?.map fun r => (r.code.code, fieldBits r.field, r.data)

/-- The session an instruction leaves. -/
def sessionAfter (i : Instr) (s : State) : Session := (after (exec i s)).session

/-- How many calls an instruction made. -/
def calls (i : Instr) (s : State) : Nat := (after (exec i s)).trace.length

/-- A buffer with all 512 bytes written, left unevaluated. -/
theorem exists_full : ∃ m : Memory, ∀ a < 512, (m.read a).isSome = true := by
  refine ⟨Memory.writeBytes [] 0 (List.replicate 512 0), fun a h => ?_⟩
  rw [Memory.read_writeBytes, List.length_replicate, if_pos (by omega), List.getElem?_replicate, if_pos (by omega)]
  rfl

/-- ready, with a complete image m. -/
def readyFull (m : Memory) (session : Session) (answers : List Answer) : State :=
  { ready session answers with imgBuf := m, imgLen := 512 }

/-! ### WellFormed: an ill-formed term for each check (R74) -/

theorem test_wf_legal : (Instr.encodeFrame 0x92 0x34 10 51 7 1).wellFormed = true := by decide
theorem test_wf_kind : (Instr.encodeFrame 0x09 1 0 0 0 0).wellFormed = false := by decide
theorem test_wf_mode : (Instr.encodeFrame 0x08 3 0 0 0 0).wellFormed = false := by decide
theorem test_wf_param1 : (Instr.encodeFrame 0x08 1 11 0 0 0).wellFormed = false := by decide
theorem test_wf_param2 : (Instr.encodeFrame 0x08 1 0 52 0 0).wellFormed = false := by decide
theorem test_wf_color : (Instr.encodeFrame 0x08 1 0 0 8 0).wellFormed = false := by decide
theorem test_wf_flag : (Instr.encodeFrame 0x08 1 0 0 0 2).wellFormed = false := by decide
theorem test_wf_present : (Instr.encodeColor 1 2 3 2).wellFormed = false := by decide
theorem test_wf_slot : (Instr.imgWriteSlot 0 1 2 3 1).wellFormed = false := by decide
theorem test_wf_slot_high : (Instr.imgWriteSlot 129 1 2 3 1).wellFormed = false := by decide
theorem test_wf_slot_present : (Instr.imgWriteSlot 5 1 2 3 2).wellFormed = false := by decide
theorem test_wf_preset_mode : (Instr.applyPreset 3 0 0 0).wellFormed = false := by decide
theorem test_wf_preset_speed : (Instr.applyPreset 1 11 0 0).wellFormed = false := by decide
theorem test_wf_preset_brightness : (Instr.applyPreset 1 0 52 0).wellFormed = false := by decide
theorem test_wf_preset_color : (Instr.applyPreset 1 0 0 8).wellFormed = false := by decide

/-! ### Decoding: words of 95 sections 2 and 3, lanes by R71 -/

theorem test_decode_encodeFrame : decode 0x010007330A340012 = .ok (.encodeFrame 0x12 0x34 10 51 7 0) := by decide
theorem test_decode_encodeColor : decode 0x0200000056341200 = .ok (.encodeColor 0x12 0x34 0x56 0) := by decide
theorem test_decode_imgClear : decode 0x1000000000000000 = .ok .imgClear := by decide
theorem test_decode_imgWriteSlot : decode 0x1100000103020180 = .ok (.imgWriteSlot 128 1 2 3 1) := by decide
theorem test_decode_imgLoadBegin : decode 0x1200000000000000 = .ok .imgLoadBegin := by decide
theorem test_decode_imgLoadByte : decode 0x13000000000000AB = .ok (.imgLoadByte 0xAB) := by decide
theorem test_decode_imgReadByte : decode 0x1400000000000100 = .ok (.imgReadByte 256) := by decide
theorem test_decode_sessionOpen : decode 0x2000000000000000 = .ok .sessionOpen := by decide
theorem test_decode_sessionClose : decode 0x2100000000000000 = .ok .sessionClose := by decide
theorem test_decode_applyPreset : decode 0x220007330A340000 = .ok (.applyPreset 0x34 10 51 7) := by decide
theorem test_decode_applyCustom : decode 0x2300000000000000 = .ok .applyCustom := by decide
theorem test_decode_readStatus : decode 0x3000000000000000 = .ok .readStatus := by decide

/-- Unassigned opcodes (95 section 2.2). -/
theorem test_illegal_opcodes :
    [0x0000000000000000, 0x0300000000000000, 0xFF00000000000000].map (decode ·) =
      List.replicate 3 (.error .unassignedOpcode) := by decide

/-- Nonzero lanes a format marks "0" (95 sections 2.2 to 2.5). -/
theorem test_illegal_lanes :
    [0x0100000000010108, 0x010000000B030108, 0x3000000000000001, 0x0200000100000001, 0x0201000100000000,
      0x110100010000FF05, 0x1400000000000200, 0x13000000000001AB, 0x2201000000010000].map (decode ·) =
      List.replicate 9 (.error .nonzeroReserved) := by decide

theorem test_decodeTableWord : decodeTableWord 64 0x14000000000001FF = some (.imgReadByte 0x1FF) := by decide

/-- Assembler forms (R84, 95 sections 2.3, 2.4 and P1). -/
theorem test_asm :
    (Asm.encodeColor 255 0 0).word = 0x020000010000FF00 ∧ (Asm.imgWriteSlotNone 5).word = 0x1100000000000005 ∧
    (Asm.encodeFrame Kind.preset.toByte Mode.static.toByte 0 20 Color.white.toByte 0).word = 0x0100071400010008 := by
  decide

/-- Lines of text (R84, R86, 95 section 2): names, decimal and hexadecimal numbers, none, and the word directive. -/
theorem test_asm_text :
    ((Asm.parse "ENCODE_FRAME Preset, static, 0, 20, white, 0").map Asm.word = some 0x0100071400010008) ∧
    ((Asm.parse "IMG_WRITE_SLOT 5, none").map Asm.word = some 0x1100000000000005) ∧
    ((Asm.parse "IMG_READ_BYTE 0x1FF").map Asm.word = some 0x14000000000001FF) ∧
    ((Asm.parse ".word64 0x0200000056341200").map Asm.word = some 0x0200000056341200) ∧
    ((Asm.parse "IMG_LOAD_BYTE 256").map Asm.word = none) := by decide +kernel

/-! ### Frames and records (95 sections 2.1 to 2.3) -/

/-- The largest sum of a Preset frame, 129: 08 34 0A 33 07 01 gives the checksum 7E. -/
theorem test_encodeFrame_response :
    answer (.encodeFrame 0x08 0x34 10 51 7 1) (ready .unopened []) = some (0, 0, 0x7E0107330A340008) := by decide

/-- ReadConfig with custom: the exact sum is 267, so the checksum wraps below zero: 0xFF - 267 = -12 = F4 mod 256. -/
theorem test_checksum_wraps : checksum 0x92 0x34 10 51 7 1 = 0xF4 := by decide

theorem test_encodeFrame_first_error :
    answer (.encodeFrame 0 3 0 0 9 0) (ready .unopened []) = some (1, 2, 3) ∧
    answer (.encodeFrame 8 1 0 52 0 2) (ready .unopened []) = some (1, 4, 0x34) := by decide

theorem test_encodeColor_none :
    answer (.encodeColor 0x12 0x34 0x56 0) (ready .unopened []) = some (0, 0, 0) := by decide
theorem test_encodeColor_white :
    answer (.encodeColor 255 255 255 1) (ready .unopened []) = some (0, 0, 0xFFFFFF00) := by decide

/-! ### Image packer (95 section 2.4) -/

theorem test_imgClear_completes : (after (exec .imgClear (ready .unopened []))).imgLen.val = 512 := by rfl

/-- Slot 128 is bytes 508 to 511. -/
theorem test_imgWriteSlot_last :
    (after (exec (.imgWriteSlot 128 1 2 3 1) (ready .unopened []))).imgBuf =
      [(508, 0), (509, 1), (510, 2), (511, 3)] := by decide

/-- Slot 7 is unassigned: dropped, and still OK. -/
theorem test_imgWriteSlot_unassigned :
    (after (exec (.imgWriteSlot 7 1 2 3 1) (ready .unopened []))).imgBuf = [] ∧
    answer (.imgWriteSlot 7 1 2 3 1) (ready .unopened []) = some (0, 0, 0) := by decide

theorem test_imgLoadByte_last :
    let t := after (exec (.imgLoadByte 0xFF) { ready .unopened [] with imgLen := 511 })
    t.imgBuf = [(511, 0xFF)] ∧ t.imgLen.val = 512 := by decide

theorem test_imgLoadByte_overflow :
    let t := after (exec (.imgLoadByte 1) { ready .unopened [] with imgLen := 512 })
    t.imgBuf = [] ∧ t.imgLen.val = 513 := by decide

theorem test_imgReadByte :
    answer (.imgReadByte 17) { ready .unopened [] with imgBuf := [(16, 0), (17, 0xFF)] } = some (0, 0, 0xFF) := by decide

/-! ### Serializer (95 section 2.5) -/

theorem test_sessionOpen_outcomes :
    answer .sessionOpen (ready .unopened [.notFound]) = some (3, 0, 0) ∧
    answer .sessionOpen { ready .failed [.error] with devInconsistent := true } = some (4, 0, 0x100) ∧
    sessionAfter .sessionOpen (ready .failed [.ok]) = .opened := by decide

theorem test_sessionClose :
    answer .sessionClose (ready .unopened []) = some (6, 0, 0) ∧
    calls .sessionClose (ready .preset [.ok]) = 1 ∧ calls .sessionClose (ready .failed [.ok]) = 0 := by decide

/-- The frame 08 00 34 0A 33 07 00 7F. -/
theorem test_applyPreset_frame :
    (after (exec (.applyPreset 0x34 10 51 7) (ready .opened [.ok]))).trace =
      [⟨.feature ⟨0x08, 0, 0x34, 0x0A, 0x33, 7, 0, 0x7F⟩, .ok⟩] := by decide

/-- An ERROR ends in Failed with T_CLOSE as the second call; mode 3 is reported before the wrong state. -/
theorem test_applyPreset_errors :
    answer (.applyPreset 1 0 0 0) (ready .opened [.error, .ok]) = some (4, 0, 0) ∧
    calls (.applyPreset 1 0 0 0) (ready .opened [.error, .ok]) = 2 ∧
    answer (.applyPreset 3 0 0 0) (ready .unopened []) = some (1, 2, 3) := by decide

theorem test_applyCustom_length :
    answer .applyCustom { ready .opened [] with imgLen := 511 } = some (2, 0, 0x1FF) ∧
    answer .applyCustom { ready .opened [] with imgLen := 513 } = some (2, 0, 0x201) ∧
    answer .applyCustom (ready .unopened []) = some (2, 0, 0) := by decide

/-- Call 0 fails: two calls, index 0, DEV_INCONSISTENT kept. -/
theorem test_applyCustom_begin_fails :
    answer .applyCustom { ready .opened [.error, .ok] with imgLen := 512 } = some (4, 0, 0) ∧
    calls .applyCustom { ready .opened [.error, .ok] with imgLen := 512 } = 2 := by decide

/-- STATUS words of 95 section 2.6. -/
theorem test_readStatus_failed :
    answer .readStatus { ready .failed [] with devInconsistent := true, lastErr := .transportError, imgLen := 512 } =
      some (0, 0, 0x20004D) := by decide
theorem test_readStatus_length :
    answer .readStatus { ready .opened [] with lastErr := .lengthError, imgLen := 511 } = some (0, 0, 0x1FF021) := by decide

/-- The first instruction after reset (R38: STATUS is 0), and an illegal word (95 section 2.2: 5/0/0). -/
theorem test_first_step :
    (after (step (State.reset.withFetchWord 64 0x3000000000000000))).responses = [⟨.ok, .noField, 0⟩] ∧
    (after (step (State.reset.withFetchWord 64 0x3000000000000001))).responses = [⟨.illegalCommand, .noField, 0⟩] ∧
    (after (step (State.reset.withFetchWord 64 0x3000000000000001))).lastErr = .illegalCommand := by decide

/-- The host closes after a failed preset only if the session is Opened or Preset (R85). -/
theorem test_hostNext :
    hostNext (presetSession 1 0 20 7) .stateError .opened = [.sessionClose] ∧
    hostNext (presetSession 1 0 20 7) .transportError .failed = [] := by decide

/-- A preset refused by validation is followed by the close alone (R85): T_OPEN and T_CLOSE. -/
theorem test_runStopping :
    (after (State.runStopping (presetSession 3 0 0 0) { ready .unopened [.ok, .ok] with busy := false })).responses.map
      Response.code = [.ok, .validationError, .ok] := by decide

/-! ### Witnesses: the hypotheses of each obligation, met together -/

/-- Between commands, with the words offered and the answers at hand. -/
def idle (session : Session) (port : List Word) (answers : List Answer) : State :=
  { State.reset with slotAssigned := mask, session := session, port := port, answers := answers }

/-- Waiting for T_OPEN's outcome. -/
def opening (answers : List Answer) : State :=
  { ready .unopened answers with inFlight := some ⟨.openDevice Config.device, .opening⟩ }

theorem test_witness_DecodedWordIsItsEncoding :
    decode 0x01010033000D0092 = .ok (.encodeFrame 0x92 13 0 51 0 1) := by decide

theorem test_witness_StepRunsDecodedInstruction :
    (idle .unopened [0x2000000000000000] []).busy = false ∧
    (idle .unopened [0x2000000000000000] []).port = 0x2000000000000000 :: [] ∧
    decode 0x2000000000000000 = .ok .sessionOpen := by decide

theorem test_witness_IllegalWordRaisesIllegalCommand :
    (∀ w, (idle .opened [w] []).busy = false ∧ (idle .opened [w] []).port = w :: []) ∧
    illegalWord 0 ∧ illegalWord 0x3000000000000001 ∧ illegalWord 0x1400000000000200 := by
  refine ⟨fun w => ⟨rfl, rfl⟩, ?_, ?_, ?_⟩
  · intro op; cases op <;> decide
  · intro op; cases op <;> decide
  · intro op; cases op <;> decide

theorem test_witness_busy_and_waiting :
    (opening []).busy = true ∧ (opening []).answers = [] ∧ (opening [.ok]).busy = true ∧
    (idle .opened [] [.ok]).busy = false ∧ (idle .opened [] [.ok]).port = [] := by decide

theorem test_witness_EncodeFrameAnswersTheFrame :
    (0x92#8 ∈ [0x08#8, 0x92, 0x12]) ∧ (0x34#8 ∈ [1#8, 2, 4, 5, 6, 7, 8, 9, 10, 11, 12, 13, 0x34]) ∧
    (10#8).toNat ≤ 10 ∧ (51#8).toNat ≤ 51 ∧ (7#8).toNat ≤ 7 ∧ (1#8).toNat ≤ 1 := by decide

theorem test_witness_EncodeColorAnswersTheRecord : (0#8).toNat ≤ 1 ∧ (1#8).toNat ≤ 1 := by decide

theorem test_witness_EncodersIgnoreImageAndSession :
    (Instr.encodeFrame 8 1 0 0 0 0).opcode = .encodeFrame ∧ (Instr.encodeColor 1 2 3 2).opcode = .encodeColor := by decide

/-- One failing operand at the edge of each legal set, and the order where two fail. -/
theorem test_witness_FirstBadOperandIsReported :
    (Instr.encodeFrame 0x08 1 11 52 0 0).checksInOrder.find? (fun c => !c.1.allows c.2) = some (.param1, 11) ∧
    (Instr.encodeFrame 0x08 3 0 52 0 2).checksInOrder.find? (fun c => !c.1.allows c.2) = some (.param2, 52) ∧
    (Instr.encodeFrame 0 3 0 0 8 2).checksInOrder.find? (fun c => !c.1.allows c.2) = some (.flag, 2) ∧
    (Instr.encodeFrame 0 14 0 0 8 0).checksInOrder.find? (fun c => !c.1.allows c.2) = some (.mode, 14) ∧
    (Instr.encodeFrame 0 1 0 0 8 0).checksInOrder.find? (fun c => !c.1.allows c.2) = some (.kind, 0) ∧
    (Instr.encodeFrame 8 1 0 0 8 0).checksInOrder.find? (fun c => !c.1.allows c.2) = some (.color, 8) ∧
    (Instr.encodeColor 0 0 0 2).checksInOrder.find? (fun c => !c.1.allows c.2) = some (.present, 2) ∧
    (Instr.imgWriteSlot 0 0 0 0 2).checksInOrder.find? (fun c => !c.1.allows c.2) = some (.slot, 0) ∧
    (Instr.imgWriteSlot 129 0 0 0 0).checksInOrder.find? (fun c => !c.1.allows c.2) = some (.slot, 129) ∧
    (Instr.imgWriteSlot 128 0 0 0 2).checksInOrder.find? (fun c => !c.1.allows c.2) = some (.present, 2) ∧
    (Instr.applyPreset 3 11 0 0).checksInOrder.find? (fun c => !c.1.allows c.2) = some (.param1, 11) := by decide

/-- One command that ends at once, and one that waits. -/
theorem test_witness_WellFormedNeverValidationError :
    (Instr.encodeFrame 0x92 0x34 10 51 7 1).wellFormed = true ∧ (Instr.applyPreset 0x34 10 51 7).wellFormed = true ∧
    (Instr.encodeFrame 0x92 3 10 51 7 1).wellFormed = false := by decide

theorem test_witness_ImgWriteSlot :
    1 ≤ (1#8).toNat ∧ (1#8).toNat ≤ 128 ∧ 1 ≤ (128#8).toNat ∧ (128#8).toNat ≤ 128 ∧ (1#8).toNat ≤ 1 ∧
    (ready .unopened []).slotAssigned.getLsbD ((1#8).toNat - 1) = true ∧
    (ready .unopened []).slotAssigned.getLsbD ((128#8).toNat - 1) = true ∧
    (ready .unopened []).slotAssigned.getLsbD ((7#8).toNat - 1) = false ∧
    (ready .unopened []).slotAssigned.getLsbD ((100#8).toNat - 1) = false := by decide

/-- For slots 1 and 1, and for slots 1 and 128. -/
theorem test_witness_SlotWritesLastWinsAndCommute :
    ∀ slot ∈ [1#8, 128#8], ∃ s a b ab ba : State, s.canonical ∧
      (Instr.imgWriteSlot 1 1 2 3 1).wellFormed = true ∧ (Instr.imgWriteSlot slot 4 5 6 1).wellFormed = true ∧
      exec (.imgWriteSlot 1 1 2 3 1) s = .next a ∧ exec (.imgWriteSlot slot 4 5 6 1) a = .next ab ∧
      exec (.imgWriteSlot slot 4 5 6 1) s = .next b ∧ exec (.imgWriteSlot 1 1 2 3 1) b = .next ba := by
  intro slot h
  simp only [List.mem_cons, List.not_mem_nil, or_false] at h
  rcases h with rfl | rfl <;>
    exact ⟨ready .unopened [], _, _, _, _, Memory.reset_wf, by decide, by decide, rfl, rfl, rfl, rfl⟩

theorem test_witness_ImgLoadByte :
    (ready .unopened []).imgLen.val < 512 ∧ ({ ready .unopened [] with imgLen := 511 } : State).imgLen.val < 512 ∧
    512 ≤ ({ ready .unopened [] with imgLen := 512 } : State).imgLen.val ∧
    512 ≤ ({ ready .unopened [] with imgLen := 513 } : State).imgLen.val := by decide

theorem test_witness_LoadCountingLaw : (idle .opened [] []).busy = false := rfl

theorem test_witness_ImgReadByte :
    ({ ready .unopened [] with imgBuf := [(511, 0xFF)] } : State).imgBuf.read (511 : Addr).toNat = some 0xFF ∧
    (ready .unopened []).imgBuf.read (0 : Addr).toNat = none := by decide

/-- A layout with one name at slot 128, and the block's own layout. -/
theorem test_witness_PackImageFillsEverySlot :
    let layout : Fin 128 → Option KeyName := fun i => if i = 127 then some "a" else none
    ({ State.reset with slotAssigned := layoutMask layout } : State).busy = false ∧
    ({ State.reset with slotAssigned := layoutMask layout } : State).slotAssigned = layoutMask layout ∧
    slotColor layout [("a", ⟨1, 2, 3⟩)] 127 = some ⟨1, 2, 3⟩ ∧
    State.reset.busy = false ∧ State.reset.slotAssigned = layoutMask Config.keyLayout :=
  ⟨rfl, rfl, by decide, rfl, rfl⟩

theorem test_witness_SessionOpenFollowsTheOutcome :
    ∀ a : Answer, ∀ v ∈ [Session.unopened, Session.failed],
      ((ready v [a]).session = .unopened ∨ (ready v [a]).session = .failed) ∧ (ready v [a]).answers = a :: [] := by
  intro a v h
  simp only [List.mem_cons, List.not_mem_nil, or_false] at h
  exact ⟨h, rfl⟩

theorem test_witness_WrongSessionIsStateError :
    ((ready .committed []).session ≠ .unopened ∧ (ready .committed []).session ≠ .failed) ∧
    (ready .unopened []).session = .unopened ∧
    ((Instr.applyPreset 1 0 20 7).opcode = .applyPreset ∧ (Instr.applyPreset 1 0 20 7).wellFormed = true ∧
      (ready .preset []).session ≠ .opened) ∧
    (Instr.applyCustom.wellFormed = true ∧ ({ ready .failed [] with imgLen := 512 } : State).imgLen = 512 ∧
      ({ ready .failed [] with imgLen := 512 } : State).session ≠ .opened) := by decide

theorem test_witness_SessionCloseReleasesTheHandle :
    (∀ v ∈ [Session.opened, Session.preset, Session.committed],
      ((ready v [.error]).session = .opened ∨ (ready v [.error]).session = .preset ∨
        (ready v [.error]).session = .committed) ∧ (ready v [.error]).answers = .error :: []) ∧
    (ready .failed []).session = .failed := by decide

theorem test_witness_ApplyPreset :
    (Instr.applyPreset 0x34 10 51 7).wellFormed = true ∧ (ready .opened [.ok]).session = .opened ∧
    (ready .opened [.ok]).answers = .ok :: [] ∧ (ready .opened [.error, .ok]).session = .opened ∧
    (ready .opened [.error, .ok]).answers = .error :: .ok :: [] := by decide

theorem test_witness_ApplyCustomUploadsAndCommits :
    ∃ s : State, s.session = .opened ∧ s.imgLen = 512 ∧ s.imageComplete ∧ s.answers = List.replicate 10 .ok ++ [] :=
  let ⟨m, h⟩ := exists_full
  ⟨readyFull m .opened (List.replicate 10 .ok ++ []), rfl, rfl, h, rfl⟩

/-- For every call index, 0 and 9 among them. -/
theorem test_witness_ApplyCustomFailureAborts :
    ∀ i : Fin 10, ∃ s : State, s.session = .opened ∧ s.imgLen = 512 ∧ s.imageComplete ∧
      s.answers = List.replicate i.val .ok ++ .error :: .ok :: [] :=
  let ⟨m, h⟩ := exists_full
  fun i => ⟨readyFull m .opened (List.replicate i.val .ok ++ [.error, .ok]), rfl, rfl, h, rfl⟩

theorem test_witness_ApplyCustomWaitsAtACall :
    ∀ i : Fin 10, ∃ s : State, s.session = .opened ∧ s.imgLen = 512 ∧ s.imageComplete ∧
      s.answers = List.replicate i.val .ok :=
  let ⟨m, h⟩ := exists_full
  fun i => ⟨readyFull m .opened (List.replicate i.val .ok), rfl, rfl, h, rfl⟩

theorem test_witness_ApplyCustomLengthError :
    ({ ready .opened [] with imgLen := 0 } : State).imgLen ≠ 512 ∧
    ({ ready .opened [] with imgLen := 511 } : State).imgLen ≠ 512 ∧
    ({ ready .opened [] with imgLen := 513 } : State).imgLen ≠ 512 := by decide

/-- Both clauses: the word offered between commands, and Uploading at chunk 0 with its write in flight. -/
theorem test_witness_StatusNeverShowsUploading :
    ((idle .committed [encode .readStatus] []).coherent ∧ (idle .committed [encode .readStatus] []).busy = false ∧
      (idle .committed [encode .readStatus] []).port = encode .readStatus :: []) ∧
    ∃ s : State, s.coherent ∧ s.session = .uploading :=
  ⟨⟨⟨rfl, rfl, by decide⟩, rfl, rfl⟩,
    { ready .uploading [] with
      imgLen := 512, seqStep := some 1, inFlight := some ⟨.write (List.replicate 64 0), .upload 1⟩ },
    ⟨rfl, rfl, rfl, rfl, _, rfl, List.length_replicate⟩, rfl⟩

theorem test_witness_SessionCommandsWaitForTheTransport :
    (ready .failed []).answers = [] ∧ (ready .failed []).session = .failed ∧ (ready .preset []).answers = [] ∧
    (ready .preset []).session = .preset ∧ (ready .opened []).answers = [] ∧ (ready .opened []).session = .opened ∧
    (Instr.applyPreset 1 0 20 7).wellFormed = true := by decide

theorem test_witness_AbortWaitsForTheClose :
    ((Instr.applyPreset 1 10 51 7).wellFormed = true ∧ (ready .opened [.error]).session = .opened ∧
      (ready .opened [.error]).answers = [.error]) ∧
    ∀ i : Fin 10, ∃ s : State, s.session = .opened ∧ s.imgLen = 512 ∧ s.imageComplete ∧
      s.answers = List.replicate i.val .ok ++ [.error] :=
  let ⟨m, h⟩ := exists_full
  ⟨by decide, fun i => ⟨readyFull m .opened (List.replicate i.val .ok ++ [.error]), rfl, rfl, h, rfl⟩⟩

theorem test_witness_AnswerTimingMakesNoDifference :
    (ready .unopened []).busy = true ∧
    exec .sessionOpen (ready .unopened []) = .next (after (exec .sessionOpen (ready .unopened []))) ∧
    (after (exec .sessionOpen (ready .unopened []))).busy = true := ⟨rfl, rfl, rfl⟩

/-- Both clauses: a command that ends, and one that waits. -/
theorem test_witness_LastErrorRecordsTheResponse :
    (ready .unopened []).busy = true ∧ (after (exec .imgLoadBegin (ready .unopened []))).busy = false ∧
    (after (exec .sessionOpen (ready .unopened []))).busy = true := ⟨rfl, rfl, rfl⟩

theorem test_witness_frames_over_families :
    Instr.readStatus.isSessionCommand = false ∧ Instr.imgLoadBegin.writesImage = false ∧
    Instr.applyPreset 1 0 20 7 ≠ .applyCustom := by decide

/-- By the command a step accepts, and by the one in flight. -/
theorem test_witness_OnlyAnOpenGainsTheHandle :
    (∃ s t : State, s.coherent ∧ step s = .next t ∧ s.session.holdsHandle = false ∧ t.session.holdsHandle = true) ∧
    ∃ s t : State, s.coherent ∧ step s = .next t ∧ s.session.holdsHandle = false ∧ t.session.holdsHandle = true :=
  ⟨⟨idle .failed [0x2000000000000000] [.ok], _, ⟨rfl, rfl, by decide⟩, rfl, rfl, rfl⟩,
    ⟨opening [.ok], _, ⟨rfl, rfl, rfl, .inl rfl⟩, rfl, rfl, rfl⟩⟩

/-- A state in mid-open that meets every invariant, and its step; the second clause of StepKeepsCountedBytesWritten has a
complete image. -/
theorem test_witness_invariants :
    (∃ s t : State, s.canonical ∧ s.imageWritten ∧ s.coherent ∧ s.answeredOnce ∧ s.handleBalanced ∧
      s.sendsOnlySendable ∧ step s = .next t) ∧
    ∃ s : State, s.imageWritten ∧ s.imgLen = 512 := by
  obtain ⟨m, h⟩ := exists_full
  refine ⟨⟨opening [.ok], _, Memory.reset_wf, fun _ a h => absurd h (Nat.not_lt_zero a), ⟨rfl, rfl, rfl, .inl rfl⟩, rfl,
    rfl, ⟨fun c hc => absurd hc List.not_mem_nil, ?_⟩, rfl⟩, readyFull m .opened [], fun _ a ha => h a ha, rfl⟩
  rintro f ⟨⟩
  rfl

end Sys2Proof.Tests
end

section
/-! PROOFS. What a step that answers a next state did, and what every command keeps: the background of the serializer, and
SLOT_ASSIGNED. -/

namespace Sys2Proof.Machine

/-- Every step answers a next state (R208). -/
theorem step_next (s : State) : ∃ t, step s = .next t := by
  have hc := step_cases s
  generalize step s = r at hc
  cases hc with
  | inProgress => exact ⟨_, rfl⟩
  | waits => exact ⟨_, rfl⟩
  | illegal => exact ⟨_, rfl⟩
  | runs _ _ i => exact exec_next i _

/-- How a step came to its next state: the command in progress went on, the block waited, an illegal word was answered, or
an instruction ran on the state that accepted its word. -/
theorem step_next_cases {s t : State} (h : step s = .next t) :
    (s.busy = true ∧ t = s.runCalls) ∨ t = s ∨
      (∃ w rest, s.busy = false ∧ t = (s.accept w rest).respond .illegalCommand .noField 0) ∨
      ∃ w rest i, s.busy = false ∧ exec i (s.accept w rest) = .next t := by
  have hc := step_cases s
  generalize step s = r at hc h
  cases hc with
  | inProgress hb => exact .inl ⟨hb, by simpa using h.symm⟩
  | waits => exact .inr (.inl (by simpa using h.symm))
  | illegal w rest _ hb => exact .inr (.inr (.inl ⟨w, rest, hb, by simpa using h.symm⟩))
  | runs w rest i hb => exact .inr (.inr (.inr ⟨w, rest, i, hb, h⟩))

/-- With BUSY 1 a step runs the calls of the command in progress and does nothing else (R83). -/
theorem step_of_busy {s : State} (h : s.busy = true) : step s = .next s.runCalls := by
  simp [step, State.fetch, h]

/-- With no answer at hand the command in progress stays as it is. -/
theorem State.runCalls_of_no_answers {s : State} (h : s.answers = []) : s.runCalls = s := by
  rw [State.runCalls, h, State.takeAnswers, ← h]

theorem SessionOutcome.background {s : State} {i : Instr} {t : State} (h : SessionOutcome s i t) :
    State.SameBackground s t := by
  have hissue : ∀ q k, State.SameBackground s (s.issue q k).runCalls := fun q k =>
    .trans (t := s.issue q k) ⟨rfl, rfl, rfl, rfl, rfl⟩ (State.background_runCalls _)
  have hframe : ∀ f n k, State.SameBackground s (s.issueFrame f n k).runCalls := fun f n k =>
    .trans (t := s.issueFrame f n k) ⟨rfl, rfl, rfl, rfl, rfl⟩ (State.background_runCalls _)
  cases h with
  | error => exact ⟨rfl, rfl, rfl, rfl, rfl⟩
  | closeOnly => exact ⟨rfl, rfl, rfl, rfl, rfl⟩
  | opening => exact hissue _ _
  | closing => exact hissue _ _
  | preset => exact hframe _ _ _
  | upload => exact hframe _ _ _

/-- How a command came to its next state: a session command by its outcome, any other by one response after writing at most
FRAME_REG, the image and the draw counter. -/
theorem exec_next_cases {i : Instr} {s t : State} (h : exec i s = .next t) :
    SessionOutcome s i t ∨
      ∃ (f : Frame) (m : Memory) (n : Fin 514) (k : Nat) (r : Response),
        t = (if i = .readStatus then s.send r
          else State.respond r.code r.field r.data { s with frameReg := f, imgBuf := m, imgLen := n, draws := k }) ∧
        (i.writesImage = false → m = s.imgBuf ∧ (i ≠ .imgLoadBegin → n = s.imgLen)) := by
  cases hi : i.isSessionCommand with
  | true =>
    obtain ⟨t', ht', ho⟩ := exec_session_command hi s
    obtain rfl : t' = t := by simpa [ht'] using h
    exact .inl ho
  | false =>
    obtain ⟨u, r, hu, f, m, n, k, rfl, -, himg⟩ := exec_other_command hi s
    exact .inr ⟨f, m, n, k, r, by simpa [hu] using h.symm, himg⟩

/-- No command writes SLOT_ASSIGNED (R28). -/
theorem exec_slotAssigned {i : Instr} {s t : State} (h : exec i s = .next t) : t.slotAssigned = s.slotAssigned := by
  rcases exec_next_cases h with ho | ⟨f, m, n, k, r, rfl, -⟩
  · exact ho.background.slotAssigned
  · split <;> rfl

end Sys2Proof.Machine
end

section
/-! PROOFS. The bytes IMG_LEN counts have been written (R25, R36). -/

namespace Sys2Proof.Machine

/-- A written byte stays written. -/
theorem Memory.isSome_read_writeBytes {m : Memory} {x : Nat} (a : Nat) (bytes : List Byte)
    (h : (m.read x).isSome = true) : ((m.writeBytes a bytes).read x).isSome = true := by
  rw [Memory.read_writeBytes]
  split
  · rw [List.getElem?_eq_getElem (by omega)]
    rfl
  · exact h

/-- With IMG_LEN kept and no byte lost, the counted bytes stay written. -/
theorem State.imageWritten_of_kept {s t : State} (h : s.imageWritten) (hlen : t.imgLen = s.imgLen)
    (hread : ∀ a, (s.imgBuf.read a).isSome = true → (t.imgBuf.read a).isSome = true) : t.imageWritten := by
  intro hle a ha
  rw [hlen] at hle ha
  exact hread a (h hle a ha)

theorem State.SameBackground.imageWritten {s t : State} (hst : State.SameBackground s t) (h : s.imageWritten) :
    t.imageWritten :=
  State.imageWritten_of_kept h hst.imgLen fun a ha => by rwa [hst.imgBuf]

theorem State.imageWritten_respondOk {s : State} (data : Word) (h : s.imageWritten) : (s.respondOk data).imageWritten := h

/-- IMG_CLEAR leaves every byte of IMG_BUF written (R131). -/
theorem State.imageWritten_clear (s : State) :
    State.imageWritten { s.memWrite 0 (List.replicate 512 0) with imgLen := 512 } := by
  intro _ a ha
  have hlt : a < 512 := ha
  rw [State.memWrite_imgBuf, Memory.read_writeBytes, List.length_replicate, if_pos (by omega), List.getElem?_replicate,
    if_pos (by omega)]
  rfl

theorem State.imageWritten_writeSlot (slot : Byte) (record : List Byte) {s : State} (h : s.imageWritten) :
    (s.writeSlot slot record).imageWritten := by
  unfold State.writeSlot
  split
  · exact State.imageWritten_of_kept h rfl fun _ => Memory.isSome_read_writeBytes _ _
  · exact h

theorem State.imageWritten_loadByte (data : Byte) {s : State} (h : s.imageWritten) :
    (s.loadByte data).imageWritten := by
  unfold State.loadByte
  split
  · next hlt =>
    intro _ a ha
    have hread : ((s.imgBuf.write s.imgLen.val data).read a).isSome = true := by
      rw [Memory.read_write]
      split
      · rfl
      · next hne => exact h (by omega) a (by simp only at ha; omega)
    exact hread
  · exact fun hle => absurd hle (show ¬513 ≤ 512 by decide)

/-- Every command keeps the counted bytes written: IMG_CLEAR writes all it counts, IMG_LOAD_BYTE the one it newly counts,
IMG_LOAD_BEGIN counts none (R131, R136, R137). -/
theorem exec_keeps_imageWritten {i : Instr} {s t : State} (h : s.imageWritten) (ht : exec i s = .next t) :
    t.imageWritten := by
  cases hw : i.writesImage with
  | true =>
    cases i with
    | imgClear =>
      obtain ⟨⟩ := ht
      exact State.imageWritten_respondOk 0 (State.imageWritten_clear s)
    | imgWriteSlot slot r g b present =>
      simp only [exec, execImgWriteSlot] at ht
      split at ht <;> obtain rfl := by simpa using ht.symm
      · exact h
      · exact State.imageWritten_writeSlot slot _ h
    | imgLoadByte data =>
      obtain rfl := by simpa [exec, execImgLoadByte] using ht.symm
      exact State.imageWritten_loadByte data h
    | _ => cases hw
  | false =>
    by_cases hb : i = .imgLoadBegin
    · subst hb
      obtain ⟨⟩ := ht
      exact fun _ a ha => absurd ha (Nat.not_lt_zero a)
    · rcases exec_next_cases ht with ho | ⟨f, m, n, k, r, rfl, himg⟩
      · exact ho.background.imageWritten h
      · obtain ⟨rfl, hlen⟩ := himg hw
        rw [hlen hb]
        split <;> exact h

/-- Settles O51: each way a step goes keeps the counted bytes written; at 512 they are all of IMG_BUF. -/
theorem stepKeepsCountedBytesWritten : Obligations.StepKeepsCountedBytesWritten := by
  refine ⟨fun s t h hst => ?_, fun s h hlen a ha => ?_⟩
  · rcases step_next_cases hst with ⟨-, rfl⟩ | rfl | ⟨w, rest, -, rfl⟩ | ⟨w, rest, i, -, ht⟩
    · exact (State.background_runCalls s).imageWritten h
    · exact h
    · exact h
    · exact exec_keeps_imageWritten (s := s.accept w rest) h ht
  · have hval : s.imgLen.val = 512 := by rw [hlen]; rfl
    exact h (by omega) a (by omega)

end Sys2Proof.Machine
end

section
/-! PROOFS. The control registers agree (R32, R33, R35, R37): between commands, while a command runs, and at each of its
calls. -/

namespace Sys2Proof.Machine

/-- No call is in flight, SEQ_STEP is idle and SESSION is not Uploading: how a command finds the block, with BUSY 1, and how
it leaves it, with BUSY 0. -/
def State.quiet (s : State) : Prop := s.inFlight = none ∧ s.seqStep = none ∧ s.session ≠ .uploading

theorem State.coherent_of_quiet {s : State} (h : s.quiet) (hb : s.busy = false) : s.coherent := by
  obtain ⟨hf, hq, hv⟩ := h
  simp only [State.coherent, hf]
  exact ⟨hb, hq, hv⟩

theorem State.coherent_of_inFlight {s : State} {f : InFlight} (hf : s.inFlight = some f) (hb : s.busy = true)
    (h : s.inFlightCoherent f) : s.coherent := by
  simp only [State.coherent, hf]
  exact ⟨hb, h⟩

theorem State.coherent.atCall {s : State} {f : InFlight} (h : s.coherent) (hf : s.inFlight = some f) :
    s.busy = true ∧ s.inFlightCoherent f := by
  simpa only [State.coherent, hf] using h

theorem State.coherent.quiet {s : State} (h : s.coherent) (hb : s.busy = false) : s.quiet := by
  cases hf : s.inFlight with
  | none =>
    simp only [State.coherent, hf] at h
    exact ⟨hf, h.2⟩
  | some f => simp [(h.atCall hf).1] at hb

/-- Issuing call i of APPLY_CUSTOM in the session it belongs to leaves the registers in agreement (R33, R180, R182). -/
theorem State.coherent_uploadCall {i : Fin 10} {s : State} (hb : s.busy = true) (hl : s.imgLen = 512)
    (hv : s.session = if i = 0 then .opened else .uploading) : (s.uploadCall i).coherent := by
  obtain ⟨f, q, k, he, hq⟩ := State.uploadCall_eq i s
  rw [he]
  refine State.coherent_of_inFlight rfl hb ⟨hl, rfl, hv, ?_⟩
  rcases hq with ⟨h0, -, hq⟩ | ⟨h9, -, hq⟩ | ⟨h0, h9, -, hd⟩
  · rw [if_pos (.inl h0)]; exact hq
  · rw [if_pos (.inr h9)]; exact hq
  · rw [if_neg (by simp [h0, h9])]; exact hd

/-- Each outcome of a call takes a state in agreement to another (R164, R170, R172, R175, R180). -/
theorem State.coherent_takeAnswer (f : InFlight) (a : Answer) {s : State} (h : s.coherent) (hf : s.inFlight = some f) :
    (s.takeAnswer f a).coherent := by
  obtain ⟨hb, hc⟩ := h.atCall hf
  obtain ⟨q, k⟩ := f
  rw [State.takeAnswer_eq]
  generalize q.outcome a = o
  cases k with
  | opening =>
    obtain ⟨-, hseq, hv⟩ := hc
    have hne : s.session ≠ .uploading := by rcases hv with hv | hv <;> simp [hv]
    cases o with
    | ok => exact State.coherent_of_quiet ⟨rfl, hseq, nofun⟩ rfl
    | done => exact State.coherent_of_quiet ⟨rfl, hseq, nofun⟩ rfl
    | notFound => exact State.coherent_of_quiet ⟨rfl, hseq, hne⟩ rfl
    | error => exact State.coherent_of_quiet ⟨rfl, hseq, hne⟩ rfl
  | closing =>
    obtain ⟨-, hseq, -⟩ := hc
    exact State.coherent_of_quiet ⟨rfl, hseq, nofun⟩ rfl
  | preset =>
    obtain ⟨-, hseq, hv⟩ := hc
    simp only [State.goOn, State.afterPreset]
    split
    · exact State.coherent_of_inFlight rfl hb ⟨rfl, hseq, hv, rfl⟩
    · exact State.coherent_of_quiet ⟨rfl, rfl, nofun⟩ rfl
  | upload i =>
    obtain ⟨hl, hseq, hv, -⟩ := hc
    simp only [State.goOn, State.afterUpload]
    split_ifs with herr h9 h0
    · exact State.coherent_of_inFlight rfl hb ⟨rfl, hseq, by simpa using hv, rfl⟩
    · exact State.coherent_of_quiet ⟨rfl, rfl, nofun⟩ rfl
    · exact State.coherent_uploadCall hb hl rfl
    · have hnext : i + 1 ≠ 0 := by omega
      rw [if_neg h0] at hv
      exact State.coherent_uploadCall hb hl (by rw [if_neg hnext]; exact hv)
  | aborting i dirty => exact State.coherent_of_quiet ⟨rfl, rfl, nofun⟩ rfl

theorem State.coherent_runCalls {s : State} (h : s.coherent) : s.runCalls.coherent :=
  State.takeAnswers_keeps (P := State.coherent) (fun _ _ h => h) (fun _ f a h hf => State.coherent_takeAnswer f a h hf)
    s.answers s h

/-- What a session command does on a state that has just accepted it: an error before any call, a close from Failed, or its
first call, issued in agreement, and then what the answers at hand make of it. -/
theorem SessionOutcome.starts {s : State} {i : Instr} {t : State} (h : SessionOutcome s i t) (hq : s.quiet)
    (hb : s.busy = true) :
    (∃ code field data, t = s.respond code field data) ∨ (s.session = .failed ∧ t = s.finishClose) ∨
      ∃ u : State, t = u.runCalls ∧ u.coherent ∧ u.trace = s.trace ∧ u.session = s.session := by
  obtain ⟨hf, hseq, hv⟩ := hq
  cases h with
  | error _ code field data => exact .inl ⟨code, field, data, rfl⟩
  | closeOnly h => exact .inr (.inl ⟨h.resolve_right hv, rfl⟩)
  | opening h => exact .inr (.inr ⟨_, rfl, State.coherent_of_inFlight rfl hb ⟨rfl, hseq, h⟩, rfl, rfl⟩)
  | closing h => exact .inr (.inr ⟨_, rfl, State.coherent_of_inFlight rfl hb ⟨rfl, hseq, h⟩, rfl, rfl⟩)
  | preset _ _ _ _ h => exact .inr (.inr ⟨_, rfl, State.coherent_of_inFlight rfl hb ⟨rfl, rfl, h⟩, rfl, rfl⟩)
  | upload h hl => exact .inr (.inr ⟨_, rfl, State.coherent_uploadCall (i := 0) hb hl h, rfl, rfl⟩)

/-- How a step of a coherent state came to its next state, in terms of the calls it runs: the calls of a command in progress
or of one just accepted; or none, and then the handle's state is kept or Failed is left for Unopened. -/
theorem State.coherent.step_cases {s t : State} (hs : s.coherent) (h : step s = .next t) :
    (∃ u : State, t = u.runCalls ∧ u.coherent ∧ u.trace = s.trace ∧ u.session = s.session) ∨
      (t.coherent ∧ t.trace = s.trace ∧ (t.session = s.session ∨ s.session = .failed ∧ t.session = .unopened)) := by
  rcases step_next_cases h with ⟨-, rfl⟩ | rfl | ⟨w, rest, hb, rfl⟩ | ⟨w, rest, i, hb, ht⟩
  · exact .inl ⟨s, rfl, hs, rfl, rfl⟩
  · exact .inr ⟨hs, rfl, .inl rfl⟩
  · exact .inr ⟨State.coherent_of_quiet (hs.quiet hb) rfl, rfl, .inl rfl⟩
  · have hq : (s.accept w rest).quiet := hs.quiet hb
    rcases exec_next_cases ht with ho | ⟨f, m, n, k, r, rfl, -⟩
    · rcases ho.starts hq rfl with ⟨code, field, data, rfl⟩ | ⟨hv, rfl⟩ | hcall
      · exact .inr ⟨State.coherent_of_quiet hq rfl, rfl, .inl rfl⟩
      · exact .inr ⟨State.coherent_of_quiet ⟨hq.1, hq.2.1, nofun⟩ rfl, rfl, .inr ⟨hv, rfl⟩⟩
      · exact .inl hcall
    · split
      · exact .inr ⟨State.coherent_of_quiet hq rfl, rfl, .inl rfl⟩
      · exact .inr ⟨State.coherent_of_quiet hq rfl, rfl, .inl rfl⟩

/-- Settles O52: a step that runs calls keeps the agreement call by call, any other leaves the block between commands. -/
theorem stepKeepsControlCoherent : Obligations.StepKeepsControlCoherent := by
  intro s t hs hst
  rcases hs.step_cases hst with ⟨u, rfl, hu, -⟩ | ⟨ht, -⟩
  · exact State.coherent_runCalls hu
  · exact ht

end Sys2Proof.Machine
end

section
/-! PROOFS. The handles gained and released in the trace balance with SESSION (R35). -/

namespace Sys2Proof.Machine

/-- Balance in one call: what the call gains and SESSION held is what the call gives back and SESSION holds now. -/
def Call.balances (c : Call) (before after : Session) : Prop :=
  c.gainsHandle.toNat + before.holdsHandle.toNat = c.dropsHandle.toNat + after.holdsHandle.toNat

theorem Call.gainsHandle_openDevice (o : CallOutcome) :
    Call.gainsHandle ⟨.openDevice Config.device, o⟩ = (o == .ok) := by
  cases o <;> simp [Call.gainsHandle]

theorem Call.gainsHandle_of_ne {c : Call} (h : c.request ≠ .openDevice Config.device) : c.gainsHandle = false := by
  rw [Call.gainsHandle, beq_eq_false_iff_ne]
  rintro rfl
  exact h rfl

theorem Call.dropsHandle_of_ne {c : Call} (h : c.request ≠ .close) : c.dropsHandle = false :=
  beq_eq_false_iff_ne.2 h

@[simp] theorem Call.dropsHandle_close (o : CallOutcome) : Call.dropsHandle ⟨.close, o⟩ = true := rfl

/-- A call that neither opens nor closes balances between sessions that both hold the handle. -/
theorem Call.balances_holding {c : Call} {v v' : Session} (ho : c.request ≠ .openDevice Config.device)
    (hc : c.request ≠ .close) (hv : v.holdsHandle = true) (hv' : v'.holdsHandle = true) : c.balances v v' := by
  rw [Call.balances, Call.gainsHandle_of_ne ho, Call.dropsHandle_of_ne hc, hv, hv']

/-- A close balances between a session that holds the handle and one that does not. -/
theorem Call.balances_close {o : CallOutcome} {v v' : Session} (hv : v.holdsHandle = true)
    (hv' : v'.holdsHandle = false) : Call.balances ⟨.close, o⟩ v v' := by
  rw [Call.balances, Call.gainsHandle_of_ne (by simp), Call.dropsHandle_close, hv, hv']
  rfl

theorem Session.holdsHandle_of_owesClose {v : Session} (h : v.owesClose = true) : v.holdsHandle = true := by
  revert h; cases v <;> decide

theorem Session.not_holdsHandle {v : Session} (h : v = .unopened ∨ v = .failed) : v.holdsHandle = false := by
  rcases h with rfl | rfl <;> rfl

/-- A balanced trace stays so with one more call that balances. -/
theorem State.handleBalanced_append {s t : State} {c : Call} (h : s.handleBalanced) (ht : t.trace = s.trace ++ [c])
    (hc : c.balances s.session t.session) : t.handleBalanced := by
  have hone : ∀ p : Call → Bool, [c].countP p = (p c).toNat := fun p => by cases hp : p c <;> simp [hp]
  unfold State.handleBalanced Call.balances at *
  rw [ht, List.countP_append, List.countP_append, hone, hone]
  omega

theorem State.uploadCall_trace (i : Fin 10) (s : State) : (s.uploadCall i).trace = s.trace := by
  obtain ⟨f, q, k, he, -⟩ := State.uploadCall_eq i s
  rw [he]

theorem State.uploadCall_session (i : Fin 10) (s : State) : (s.uploadCall i).session = s.session := by
  obtain ⟨f, q, k, he, -⟩ := State.uploadCall_eq i s
  rw [he]

theorem State.goOn_trace (k : Resume) (o : CallOutcome) (s : State) : (s.goOn k o).trace = s.trace := by
  cases k with
  | opening => cases o <;> rfl
  | closing => rfl
  | preset => simp only [State.goOn, State.afterPreset]; split <;> rfl
  | upload i =>
    simp only [State.goOn, State.afterUpload]
    split_ifs
    · rfl
    · rfl
    · exact State.uploadCall_trace 1 _
    · exact State.uploadCall_trace (i + 1) _
  | aborting => rfl

/-- Every answer adds one call to the trace (R161). -/
theorem State.takeAnswer_trace (f : InFlight) (a : Answer) (s : State) :
    (s.takeAnswer f a).trace = s.trace ++ [⟨f.request, f.request.outcome a⟩] :=
  State.goOn_trace _ _ _

/-- A call of APPLY_CUSTOM that is answered ends in a session that holds the handle, whatever the outcome: the abort's close
is still to come (R164, R180). -/
theorem State.afterUpload_holdsHandle (i : Fin 10) (o : CallOutcome) {s : State} (h : s.session.holdsHandle = true) :
    (s.afterUpload i o).session.holdsHandle = true := by
  unfold State.afterUpload
  split_ifs
  · exact h
  · rfl
  · rw [State.uploadCall_session]; rfl
  · rw [State.uploadCall_session]; exact h

/-- The answer to each call of a coherent state balances with what it makes of SESSION: only an OK to T_OPEN gains the
handle, only a T_CLOSE gives it back (R35, R164, R170, R172). -/
theorem State.balances_takeAnswer (f : InFlight) (a : Answer) {s : State} (hs : s.coherent) (hf : s.inFlight = some f) :
    Call.balances ⟨f.request, f.request.outcome a⟩ s.session (s.takeAnswer f a).session := by
  obtain ⟨-, hc⟩ := hs.atCall hf
  obtain ⟨q, k⟩ := f
  cases k with
  | opening =>
    obtain ⟨rfl, -, hv⟩ := hc
    have hno := Session.not_holdsHandle hv
    rw [Call.balances, Call.gainsHandle_openDevice, Call.dropsHandle_of_ne (by simp), hno]
    cases a with
    | ok => rfl
    | notFound => exact congrArg (fun b => 0 + b.toNat) hno.symm
    | error => exact congrArg (fun b => 0 + b.toNat) hno.symm
  | closing =>
    obtain ⟨rfl, -, hv⟩ := hc
    exact Call.balances_close (Session.holdsHandle_of_owesClose hv) rfl
  | preset =>
    obtain ⟨rfl, -, hv⟩ := hc
    refine Call.balances_holding (by simp) (by simp) (by rw [hv]; rfl) ?_
    simp only [State.takeAnswer_eq, State.goOn, State.afterPreset]
    split
    · exact congrArg Session.holdsHandle hv
    · rfl
  | upload i =>
    obtain ⟨-, -, hv, hq⟩ := hc
    have hholds : s.session.holdsHandle = true := by rw [hv]; split <;> rfl
    have hkind : q ≠ .openDevice Config.device ∧ q ≠ .close := by
      split at hq
      · obtain rfl : q = _ := hq; simp
      · obtain ⟨d, rfl, -⟩ := hq; simp
    exact Call.balances_holding hkind.1 hkind.2 hholds (State.afterUpload_holdsHandle i _ hholds)
  | aborting i dirty =>
    obtain ⟨rfl, -, hv, -⟩ := hc
    exact Call.balances_close (by rw [hv]; split <;> rfl) rfl

theorem State.handleBalanced_runCalls {s : State} (hs : s.coherent) (h : s.handleBalanced) :
    s.runCalls.handleBalanced :=
  (State.takeAnswers_keeps (P := fun t => t.coherent ∧ t.handleBalanced) (fun _ _ h => h)
    (fun t f a ⟨ht, hb⟩ hf => ⟨State.coherent_takeAnswer f a ht hf,
      State.handleBalanced_append hb (State.takeAnswer_trace f a t) (State.balances_takeAnswer f a ht hf)⟩)
    s.answers s ⟨hs, h⟩).2

/-- Settles O54: every call a step runs balances, and a step that runs none keeps who holds the handle. -/
theorem stepKeepsHandleBalance : Obligations.StepKeepsHandleBalance := by
  intro s t hs hb hst
  have hkeep : ∀ {u : State}, u.trace = s.trace → u.session.holdsHandle = s.session.holdsHandle → u.handleBalanced :=
    fun htr hh => by rw [State.handleBalanced, htr, hh]; exact hb
  rcases hs.step_cases hst with ⟨u, rfl, hu, htr, hv⟩ | ⟨-, htr, hv | ⟨hv, hv'⟩⟩
  · exact State.handleBalanced_runCalls hu (hkeep htr (by rw [hv]))
  · exact hkeep htr (by rw [hv])
  · exact hkeep htr (by rw [hv, hv']; rfl)

end Sys2Proof.Machine
end

section
/-! PROOFS. What BUSY holds back, what a command records of its response, and the registers single commands write (R28 to
R30, R80, R83). -/

namespace Sys2Proof.Machine

/-- Settles O7: with BUSY 1 a step only runs calls, which keep the background. -/
theorem busyHoldsThePortAndTheImage : Obligations.BusyHoldsThePortAndTheImage := by
  intro s hb
  obtain ⟨hbuf, hlen, hslots, hport, hcmds⟩ := State.background_runCalls s
  exact ⟨s.runCalls, step_of_busy hb, hport, hcmds, hbuf, hlen, hslots⟩

/-! ### LAST_ERR and LAST_FIELD -/

/-- One response, and LAST_ERR and LAST_FIELD hold its code and field (R29, R80). -/
def State.Answered (s t : State) : Prop :=
  t.busy = false ∧ ∃ r, t.responses = s.responses ++ [r] ∧ t.lastErr = r.code ∧ t.lastField = r.field

theorem State.answered_respond (code : RspCode) (field : FieldCode) (data : Word) (s : State) :
    State.Answered s (s.respond code field data) :=
  ⟨rfl, ⟨code, field, data⟩, rfl, rfl, rfl⟩

/-- A call just issued, with the answers at hand: the command ends with one response, or waits and has given none. -/
theorem State.answered_or_continues_of_issued {s u : State} (hu : State.Continues s u) :
    State.Answered s u.runCalls ∨ State.Continues s u.runCalls := by
  obtain ⟨⟨g, hg⟩, hb, hr, he, hl⟩ := hu
  rcases State.runCalls_cases hg with h | h
  · exact .inl ⟨h.busy, by simpa only [hr] using h.response⟩
  · exact .inr ⟨h.inFlight, h.busy.trans hb, h.responses.trans hr, h.lastErr.trans he, h.lastField.trans hl⟩

/-- A session command answers once, or waits at a call and has not answered (R80, R161). -/
theorem SessionOutcome.answered_or_continues {s : State} {i : Instr} {t : State} (h : SessionOutcome s i t) :
    State.Answered s t ∨ State.Continues s t := by
  cases h with
  | error _ code field data => exact .inl (State.answered_respond code field data s)
  | closeOnly => exact .inl (State.answered_respond .ok .noField 0 s)
  | opening => exact State.answered_or_continues_of_issued ⟨⟨_, rfl⟩, rfl, rfl, rfl, rfl⟩
  | closing => exact State.answered_or_continues_of_issued ⟨⟨_, rfl⟩, rfl, rfl, rfl, rfl⟩
  | preset => exact State.answered_or_continues_of_issued ⟨⟨_, rfl⟩, rfl, rfl, rfl, rfl⟩
  | upload => exact State.answered_or_continues_of_issued ⟨⟨_, rfl⟩, rfl, rfl, rfl, rfl⟩

/-- A command answers once and LAST_ERR and LAST_FIELD record it; or waits at a call; or is READ_STATUS, which answers and
leaves them (R29, R80, R186). -/
theorem exec_answered_or_continues {i : Instr} {s t : State} (h : exec i s = .next t) :
    (i ≠ .readStatus ∧ (State.Answered s t ∨ State.Continues s t)) ∨ (i = .readStatus ∧ ∃ r, t = s.send r) := by
  by_cases hi : i = .readStatus
  · subst hi
    obtain ⟨⟩ := h
    exact .inr ⟨rfl, _, rfl⟩
  · refine .inl ⟨hi, ?_⟩
    rcases exec_next_cases h with ho | ⟨f, m, n, k, r, rfl, -⟩
    · exact ho.answered_or_continues
    · rw [if_neg hi]
      exact .inl (State.answered_respond r.code r.field r.data
        { s with frameReg := f, imgBuf := m, imgLen := n, draws := k })

/-- Settles O46: BUSY tells a command that has answered from one that waits. -/
theorem lastErrorRecordsTheResponse : Obligations.LastErrorRecordsTheResponse := by
  intro i s hb
  obtain ⟨t, ht⟩ := exec_next i s
  refine ⟨t, ht, ?_⟩
  rcases exec_answered_or_continues ht with ⟨hi, ⟨hidle, r, hr, he, hl⟩ | hc⟩ | ⟨rfl, r, rfl⟩
  · exact ⟨fun _ => ⟨r, hr, by rw [if_neg hi]; exact ⟨he, hl⟩⟩, fun hbusy => by simp [hidle] at hbusy⟩
  · exact ⟨fun hidle => by simp [hc.busy, hb] at hidle, fun _ => ⟨hc.responses, hc.lastErr, hc.lastField⟩⟩
  · exact ⟨fun _ => ⟨r, rfl, rfl, rfl⟩, nofun⟩

/-! ### DEV_INCONSISTENT -/

/-- The calls whose outcome leaves DEV_INCONSISTENT: all but those of an upload and of the abort of one that may have sent
part of the image (R30, R164). -/
def Resume.keepsDev : Resume → Bool
  | .opening => true
  | .closing => true
  | .preset => true
  | .upload _ => false
  | .aborting _ dirty => !dirty

/-- DEV_INCONSISTENT is d, and no call is in flight whose outcome could change it. -/
def State.devStays (d : Bool) (s : State) : Prop :=
  s.devInconsistent = d ∧ ∀ f, s.inFlight = some f → f.resume.keepsDev = true

theorem State.devStays_of_issued {d : Bool} {s : State} {f : InFlight} (hd : s.devInconsistent = d)
    (hf : s.inFlight = some f) (hk : f.resume.keepsDev = true) : s.devStays d :=
  ⟨hd, fun g hg => by rw [hf] at hg; cases hg; exact hk⟩

theorem State.devStays_of_idle {d : Bool} {s : State} (hd : s.devInconsistent = d) (hf : s.inFlight = none) :
    s.devStays d :=
  ⟨hd, fun g hg => by simp [hf] at hg⟩

theorem State.devStays_takeAnswer {d : Bool} (f : InFlight) (a : Answer) {s : State} (h : s.devStays d)
    (hf : s.inFlight = some f) : (s.takeAnswer f a).devStays d := by
  obtain ⟨hd, hk⟩ := h
  have hkeeps := hk f hf
  obtain ⟨q, k⟩ := f
  rw [State.takeAnswer_eq]
  generalize q.outcome a = o
  cases k with
  | opening => cases o <;> exact State.devStays_of_idle hd rfl
  | closing => exact State.devStays_of_idle hd rfl
  | preset =>
    simp only [State.goOn, State.afterPreset]
    split
    · exact State.devStays_of_issued hd rfl rfl
    · exact State.devStays_of_idle hd rfl
  | upload => cases hkeeps
  | aborting i dirty =>
    obtain rfl : dirty = false := by simpa [Resume.keepsDev] using hkeeps
    exact State.devStays_of_idle (by simpa [State.goOn] using hd) rfl

theorem State.devStays_runCalls {d : Bool} {s : State} (h : s.devStays d) : s.runCalls.devStays d :=
  State.takeAnswers_keeps (P := State.devStays d) (fun _ _ h => h) (fun _ f a h hf => State.devStays_takeAnswer f a h hf)
    s.answers s h

theorem SessionOutcome.devInconsistent {s : State} {i : Instr} {t : State} (h : SessionOutcome s i t)
    (hi : i ≠ .applyCustom) : t.devInconsistent = s.devInconsistent := by
  cases h with
  | error => rfl
  | closeOnly => rfl
  | opening => exact (State.devStays_runCalls (State.devStays_of_issued rfl rfl rfl)).1
  | closing => exact (State.devStays_runCalls (State.devStays_of_issued rfl rfl rfl)).1
  | preset => exact (State.devStays_runCalls (State.devStays_of_issued rfl rfl rfl)).1
  | upload => exact absurd rfl hi

/-- Settles O47: no call another command makes has an outcome that writes DEV_INCONSISTENT. -/
theorem onlyApplyCustomChangesDevInconsistent : Obligations.OnlyApplyCustomChangesDevInconsistent := by
  intro i s hi
  obtain ⟨t, ht⟩ := exec_next i s
  refine ⟨t, ht, ?_⟩
  rcases exec_next_cases ht with ho | ⟨f, m, n, k, r, rfl, -⟩
  · exact ho.devInconsistent hi
  · split <;> rfl

/-! ### SLOT_ASSIGNED, and reset -/

theorem layoutMask_getLsbD (layout : Fin 128 → Option KeyName) (i : Fin 128) :
    (layoutMask layout).getLsbD i.val = (layout i).isSome := by
  simp [layoutMask]

/-- Settles O48: the mask is the layout's at reset, and neither a call nor a command writes it. -/
theorem slotAssignedIsTheLayoutMask : Obligations.SlotAssignedIsTheLayoutMask := by
  refine ⟨layoutMask_getLsbD Config.keyLayout, fun s => ?_⟩
  obtain ⟨t, ht⟩ := step_next s
  refine ⟨t, ht, ?_⟩
  rcases step_next_cases ht with ⟨-, rfl⟩ | rfl | ⟨w, rest, -, rfl⟩ | ⟨w, rest, i, -, hi⟩
  · exact (State.background_runCalls s).slotAssigned
  · rfl
  · rfl
  · exact exec_slotAssigned (s := s.accept w rest) hi

/-- Settles O10: each register by its value at reset. -/
theorem resetLeavesTheSpecValues : Obligations.ResetLeavesTheSpecValues := by
  refine ⟨rfl, rfl, rfl, rfl, rfl, fun a n => ?_, rfl, rfl, layoutMask_getLsbD Config.keyLayout, by decide⟩
  exact congrArg Prod.fst (State.readByte_unwritten (Memory.read_nil a))

/-- Settles O11: nothing is written, counted, offered or in flight after reset. -/
theorem resetMeetsTheInvariants : Obligations.ResetMeetsTheInvariants := by
  have hwritten : State.reset.imageWritten := fun _ a ha => absurd ha (Nat.not_lt_zero a)
  have hsent : State.reset.sendsOnlySendable := ⟨fun _ hc => absurd hc List.not_mem_nil, nofun⟩
  exact ⟨Memory.reset_wf, hwritten, State.coherent_of_quiet ⟨rfl, rfl, nofun⟩ rfl, rfl, rfl, hsent⟩

end Sys2Proof.Machine
end

section
/-! PROOFS. READ_STATUS and the fields of STATUS (R31, R37, R186). -/

namespace Sys2Proof.Machine

theorem statusWord_session (s : State) : (statusWord s).extractLsb' 0 3 = s.session.code := by
  ext j hj; interval_cases j <;> simp [statusWord]

theorem statusWord_devInconsistent (s : State) : (statusWord s).getLsbD 3 = s.devInconsistent := by
  simp [statusWord]

theorem statusWord_lastErr (s : State) : (statusWord s).extractLsb' 4 4 = s.lastErr.code := by
  ext j hj; interval_cases j <;> simp [statusWord]

theorem statusWord_lastField (s : State) : (statusWord s).extractLsb' 8 4 = fieldBits s.lastField := by
  ext j hj; interval_cases j <;> simp [statusWord]

theorem statusWord_imgLen (s : State) : ((statusWord s).extractLsb' 12 10).toNat = s.imgLen.val := by
  have hbits : (statusWord s).extractLsb' 12 10 = s.imgLenBits := by
    ext j hj; interval_cases j <;> simp [statusWord]
  rw [hbits, State.imgLenBits, BitVec.toNat_ofNat]
  omega

theorem statusWord_high (s : State) : (statusWord s).extractLsb' 22 42 = 0 := by
  ext j hj; interval_cases j <;> simp [statusWord]

theorem exec_readStatus (s : State) : exec .readStatus s = .next (s.send ⟨.ok, .noField, statusWord s⟩) := rfl

/-- Settles O39: the word is STATUS, each field read back from its bits. -/
theorem readStatusAnswersStatus : Obligations.ReadStatusAnswersStatus := fun s =>
  ⟨statusWord s, statusWord_session s, statusWord_devInconsistent s, statusWord_lastErr s, statusWord_lastField s,
    statusWord_imgLen s, statusWord_high s, exec_readStatus s⟩

theorem Session.code_ne_uploading {v : Session} (h : v ≠ .uploading) : v.code ≠ 3 := by
  revert h; cases v <;> decide

/-- Uploading holds only at a call of the upload, or at the close of the abort of one past call 0 (R37, R164, R182). -/
theorem State.coherent.uploading {s : State} (hs : s.coherent) (hv : s.session = .uploading) :
    s.busy = true ∧ ∃ f i, s.inFlight = some f ∧ (f.resume = .upload i ∨ f.resume = .aborting i true) := by
  have hb : s.busy = true := by
    by_contra hb
    exact (hs.quiet (Bool.eq_false_iff.2 hb)).2.2 hv
  refine ⟨hb, ?_⟩
  cases hf : s.inFlight with
  | none => simp [State.coherent, hf, hb] at hs
  | some f =>
    obtain ⟨-, hc⟩ := hs.atCall hf
    obtain ⟨q, k⟩ := f
    cases k with
    | opening => simp [State.inFlightCoherent, hv] at hc
    | closing => simp [State.inFlightCoherent, hv, Session.owesClose] at hc
    | preset => simp [State.inFlightCoherent, hv] at hc
    | upload i => exact ⟨_, i, rfl, .inl rfl⟩
    | aborting i dirty =>
      obtain ⟨-, -, hd, -⟩ := hc
      cases dirty with
      | false => simp [hv] at hd
      | true => exact ⟨_, i, rfl, .inr rfl⟩

/-- Settles O40: a word is taken only between commands, where SESSION is not Uploading. -/
theorem statusNeverShowsUploading : Obligations.StatusNeverShowsUploading := by
  refine ⟨fun s rest hs hb hp => ?_, fun s hs hv => ?_⟩
  · have hstep : step s = exec .readStatus (s.accept (encode .readStatus) rest) := by
      have hd : decode (encode .readStatus) = .ok .readStatus := by decide
      simp [step, State.fetch, hb, hp, hd]
    rw [hstep, exec_readStatus]
    refine ⟨_, _, rfl, rfl, ?_⟩
    rw [statusWord_session]
    exact Session.code_ne_uploading (hs.quiet hb).2.2
  · obtain ⟨hb, hcall⟩ := hs.uploading hv
    exact ⟨hb, hcall, s.runCalls, step_of_busy hb, (State.background_runCalls s).commands⟩

end Sys2Proof.Machine
end

section
/-! PROOFS. Where the session commands wait for the transport (R32, R33, R161), and the upload call by call while every
answer is OK (R180, R182, R185). -/

namespace Sys2Proof.Machine

theorem validatePreset_of_wellFormed {mode speed brightness color : Byte}
    (h : (Instr.applyPreset mode speed brightness color).wellFormed = true) :
    validateFrame Kind.preset.toByte mode speed brightness color 0 = none := by
  rw [validatePreset_eq]
  exact (wellFormed_iff _).1 h

theorem execSessionOpen_calls {s : State} (h : s.session = .unopened ∨ s.session = .failed) :
    exec .sessionOpen s = .next (s.issue (.openDevice Config.device) .opening).runCalls :=
  if_pos h

theorem execSessionClose_calls {s : State} (h : s.session = .opened ∨ s.session = .preset ∨ s.session = .committed) :
    exec .sessionClose s = .next (s.issue .close .closing).runCalls := by
  rcases h with h | h | h <;> simp only [exec, execSessionClose, h]

theorem execApplyPreset_calls {s : State} {mode speed brightness color : Byte} (h : s.session = .opened)
    (hw : (Instr.applyPreset mode speed brightness color).wellFormed = true) :
    exec (.applyPreset mode speed brightness color) s =
      .next (s.issueFrame (presetFrame mode speed brightness color) 0 .preset).runCalls := by
  simp only [exec, execApplyPreset, validatePreset_of_wellFormed hw, h, if_true]

theorem execApplyCustom_calls {s : State} (h : s.session = .opened) (hl : s.imgLen = 512) :
    exec .applyCustom s = .next (s.uploadCall 0).runCalls := by
  simp [exec, execApplyCustom, h, hl]

/-- Settles O41: with no answer the call just issued is where the command stays. -/
theorem sessionCommandsWaitForTheTransport : Obligations.SessionCommandsWaitForTheTransport := by
  intro s ha
  refine ⟨fun h => ?_, fun h => ?_, fun mode speed brightness color h hw => ?_⟩
  · rw [execSessionOpen_calls h, State.runCalls_of_no_answers (by exact ha)]
    rfl
  · rw [execSessionClose_calls h, State.runCalls_of_no_answers (by exact ha)]
    rfl
  · rw [execApplyPreset_calls h hw, State.runCalls_of_no_answers (by exact ha)]
    rfl

/-! ### The upload -/

theorem beginFrame_eq : beginFrame = ⟨0x12, 0x00, 0x01, 0x08, 0x00, 0x00, 0x00, 0xE4⟩ := by decide

theorem commitFrame_eq : commitFrame = ⟨0x08, 0x00, 0x34, 0x05, 0x32, 0x02, 0x01, 0x89⟩ := by decide

/-- The request of call i of an upload (R185). -/
def State.uploadRequest (s : State) (i : Fin 10) : Request :=
  if i = 0 then .feature beginFrame else if i = 9 then .feature commitFrame else .write (s.imageChunk (i.val - 1))

theorem State.uploadRequests_getElem? (s : State) (i : Fin 10) :
    s.uploadRequests[i.val]? = some (s.uploadRequest i) := by
  fin_cases i <;> simp [State.uploadRequests, State.uploadRequest, beginFrame_eq, commitFrame_eq, List.range_succ]

/-- The calls of an upload before call i, each answered OK (R185). -/
def State.uploadCallsDone (s : State) (i : Fin 10) : List Call :=
  (s.uploadRequests.take i.val).map fun q => ⟨q, .ok⟩

/-- APPLY_CUSTOM at call i, the calls before it answered OK: the call in flight, and what R180 and R182 have written. -/
def State.atUploadCall (s : State) (i : Fin 10) : State :=
  { s with
    frameReg := if i = 9 then commitFrame else beginFrame, seqStep := some i
    session := if i = 0 then .opened else .uploading, inFlight := some ⟨s.uploadRequest i, .upload i⟩, answers := []
    trace := s.trace ++ s.uploadCallsDone i }

/-- Issuing call i with a complete image: its request in flight, and nothing but FRAME_REG and SEQ_STEP written. -/
theorem State.uploadCall_of_complete {s : State} (h : s.imageComplete) (i : Fin 10) :
    s.uploadCall i = { s with
      frameReg := if i = 0 then beginFrame else if i = 9 then commitFrame else s.frameReg, seqStep := some i
      inFlight := some ⟨s.uploadRequest i, .upload i⟩ } := by
  unfold State.uploadCall State.uploadRequest
  split_ifs with h0 h9
  · subst h0; rfl
  · subst h9; rfl
  · have hc : 64 * (i.val - 1) + 64 ≤ 512 := by omega
    exact State.issueChunk_written i fun x _ hx => h x (by omega)

theorem State.uploadCallsDone_succ (s : State) {i : Fin 10} (h : i ≠ 9) :
    s.uploadCallsDone i ++ [⟨s.uploadRequest i, .ok⟩] = s.uploadCallsDone (i + 1) := by
  have hi : (i + 1).val = i.val + 1 := by omega
  simp [State.uploadCallsDone, hi, List.take_add_one, State.uploadRequests_getElem?]

theorem State.outcome_uploadRequest_ok (s : State) (i : Fin 10) : (s.uploadRequest i).outcome .ok = .ok := by
  unfold State.uploadRequest
  split_ifs <;> rfl

/-- After the OK of a call before the last SESSION is Uploading and the next call is in flight (R180, R182). -/
theorem State.afterUpload_ok {u : State} (h : u.imageComplete) {i : Fin 10} (hi : i ≠ 9)
    (hv : u.session = if i = 0 then .opened else .uploading) :
    u.afterUpload i .ok = { u with
      session := .uploading, frameReg := if i + 1 = 9 then commitFrame else u.frameReg, seqStep := some (i + 1)
      inFlight := some ⟨u.uploadRequest (i + 1), .upload (i + 1)⟩ } := by
  have hnext : i + 1 ≠ 0 := by omega
  rw [State.afterUpload, if_neg nofun, if_neg hi]
  by_cases h0 : i = 0
  · subst h0
    have hcomplete : State.imageComplete { u with session := .uploading } := h
    rw [if_pos rfl, zero_add, State.uploadCall_of_complete hcomplete]
    simp [State.uploadRequest, State.imageChunk]
  · rw [if_neg h0, State.uploadCall_of_complete h, if_neg hnext]
    simp only [hv, if_neg h0]

/-- An OK at a call before the last takes the upload to its next call. -/
theorem State.atUploadCall_takeAnswer_ok {s : State} (h : s.imageComplete) {i : Fin 10} (hi : i ≠ 9) :
    (s.atUploadCall i).takeAnswer ⟨s.uploadRequest i, .upload i⟩ .ok = s.atUploadCall (i + 1) := by
  have hnext : i + 1 ≠ 0 := by omega
  rw [State.takeAnswer_eq, State.outcome_uploadRequest_ok, State.goOn, State.afterUpload_ok (by exact h) hi rfl]
  simp only [State.atUploadCall, if_neg hi, if_neg hnext, List.append_assoc, State.uploadCallsDone_succ s hi]
  simp only [State.uploadRequest, State.imageChunk]

/-- The first i answers OK take an upload just begun to call i (R185). -/
theorem State.takeAnswers_upload {s : State} (hv : s.session = .opened) (h : s.imageComplete) (i : Fin 10) :
    (s.uploadCall 0).takeAnswers (List.replicate i.val .ok) = s.atUploadCall i := by
  induction i using Fin.induction with
  | zero =>
    rw [State.uploadCall_of_complete h]
    simp [State.takeAnswers, State.atUploadCall, State.uploadCallsDone, hv]
  | succ i ih =>
    have hi : i.castSucc ≠ 9 := (Fin.castSucc_lt_last i).ne
    have hsucc : i.castSucc + 1 = i.succ := by simp
    have hone : State.takeAnswers [.ok] (s.atUploadCall i.castSucc) =
        State.takeAnswers []
          ((s.atUploadCall i.castSucc).takeAnswer ⟨s.uploadRequest i.castSucc, .upload i.castSucc⟩ .ok) := rfl
    rw [State.atUploadCall_takeAnswer_ok h hi, hsucc] at hone
    rw [Fin.val_castSucc] at ih
    rw [Fin.val_succ, List.replicate_succ', State.takeAnswers_append, ih]
    exact hone

/-- Settles O37: i answers OK and no more leave the upload at call i. -/
theorem applyCustomWaitsAtACall : Obligations.ApplyCustomWaitsAtACall := by
  intro s i hv hl h ha
  refine ⟨s.uploadRequest i, s.uploadRequests_getElem? i, ?_⟩
  have hanswers : (s.uploadCall 0).answers = List.replicate i.val .ok := by
    rw [State.uploadCall_of_complete h]; exact ha
  rw [execApplyCustom_calls hv hl, State.runCalls, hanswers, State.takeAnswers_upload hv h, ← beginFrame_eq,
    ← commitFrame_eq]
  rfl

end Sys2Proof.Machine
end

section
/-! PROOFS. IMG_BUF (R50, R51, R56): every command keeps its canonical form, IMG_WRITE_SLOT writes one record, and the
commands that write no image keep every byte. -/

namespace Sys2Proof.Machine

/-! ### The canonical form -/

theorem State.SameBackground.canonical {s t : State} (hst : State.SameBackground s t) (h : s.canonical) : t.canonical := by
  rw [State.canonical, hst.imgBuf]
  exact h

theorem State.canonical_memWrite {a : Nat} {bytes : List Byte} {s : State} (h : s.canonical)
    (ha : a + bytes.length ≤ 512) : (s.memWrite a bytes).canonical :=
  Memory.writeBytes_wf bytes h ha

theorem State.canonical_respondOk {s : State} (data : Word) (h : s.canonical) : (s.respondOk data).canonical := h

theorem State.canonical_withImgLen {s : State} (n : Fin 514) (h : s.canonical) :
    State.canonical { s with imgLen := n } := h

theorem State.canonical_clear {s : State} (h : s.canonical) :
    State.canonical { s.memWrite 0 (List.replicate 512 0) with imgLen := 512 } :=
  State.canonical_withImgLen 512 (State.canonical_memWrite h (by rw [List.length_replicate]))

/-- The slot mux leaves room for a record at every slot byte (R51). -/
theorem recordAddr_add_four_le (slot : Byte) : recordAddr slot + 4 ≤ 512 := by
  unfold recordAddr
  omega

theorem State.canonical_writeSlot (slot : Byte) {record : List Byte} {s : State} (h : s.canonical)
    (hr : record.length = 4) : (s.writeSlot slot record).canonical := by
  unfold State.writeSlot
  split
  · exact State.canonical_memWrite h (hr ▸ recordAddr_add_four_le slot)
  · exact h

theorem State.canonical_loadByte (data : Byte) {s : State} (h : s.canonical) : (s.loadByte data).canonical := by
  unfold State.loadByte
  split
  · next hlt => exact State.canonical_memWrite (bytes := [data]) h hlt
  · exact h

/-- A command that writes no image leaves IMG_BUF, the port and the accepted commands, and all but IMG_LOAD_BEGIN leave
IMG_LEN (R50, R56). -/
theorem exec_keeps_image {i : Instr} {s t : State} (hw : i.writesImage = false) (ht : exec i s = .next t) :
    t.imgBuf = s.imgBuf ∧ (i ≠ .imgLoadBegin → t.imgLen = s.imgLen) ∧ t.port = s.port ∧ t.commands = s.commands := by
  rcases exec_next_cases ht with ho | ⟨f, m, n, k, r, rfl, himg⟩
  · obtain ⟨hbuf, hlen, -, hport, hcmds⟩ := ho.background
    exact ⟨hbuf, fun _ => hlen, hport, hcmds⟩
  · obtain ⟨hm, hn⟩ := himg hw
    split
    · exact ⟨rfl, fun _ => rfl, rfl, rfl⟩
    · exact ⟨hm, hn, rfl, rfl⟩

/-- Every command keeps the canonical form: what it writes, it writes below address 512 (R50, R51, R131, R137). -/
theorem exec_keeps_canonical {i : Instr} {s t : State} (h : s.canonical) (ht : exec i s = .next t) : t.canonical := by
  cases hw : i.writesImage with
  | true =>
    cases i with
    | imgClear =>
      obtain ⟨⟩ := ht
      exact State.canonical_respondOk 0 (State.canonical_clear h)
    | imgWriteSlot slot r g b present =>
      simp only [exec, execImgWriteSlot] at ht
      split at ht <;> obtain rfl := by simpa using ht.symm
      · exact h
      · exact State.canonical_writeSlot slot h (colorRecord_length r g b present)
    | imgLoadByte data =>
      obtain ⟨⟩ := ht
      exact State.canonical_loadByte data h
    | _ => cases hw
  | false =>
    rw [State.canonical, (exec_keeps_image hw ht).1]
    exact h

/-- Settles O50: each way a step goes keeps the canonical form; only the instruction it runs can write IMG_BUF. -/
theorem stepKeepsMemoryCanonical : Obligations.StepKeepsMemoryCanonical := by
  intro s t h hst
  rcases step_next_cases hst with ⟨-, rfl⟩ | rfl | ⟨w, rest, -, rfl⟩ | ⟨w, rest, i, -, ht⟩
  · exact (State.background_runCalls s).canonical h
  · exact h
  · exact h
  · exact exec_keeps_canonical (s := s.accept w rest) h ht

/-! ### IMG_WRITE_SLOT -/

theorem Memory.read_writeBytes_inside (m : Memory) (a : Nat) {bytes : List Byte} {j : Nat} (h : j < bytes.length) :
    (m.writeBytes a bytes).read (a + j) = bytes[j]? := by
  rw [Memory.read_writeBytes, if_pos (by omega), Nat.add_sub_cancel_left]

/-- The record byte by byte (R110). -/
theorem colorRecord_bytes (r g b present : Byte) :
    colorRecord r g b present =
      [0, if present = 1 then r else 0, if present = 1 then g else 0, if present = 1 then b else 0] := by
  unfold colorRecord
  split <;> rfl

theorem validateSlot_of_legal {slot present : Byte} (h1 : 1 ≤ slot.toNat) (h2 : slot.toNat ≤ 128)
    (hp : present.toNat ≤ 1) : validateSlot slot present = none := by
  rw [validateSlot, if_neg (by omega), validatePresent, if_neg (by omega)]

/-- IMG_WRITE_SLOT with legal operands to an assigned slot is one MemWrite and an OK (R51, R130, R133). -/
theorem exec_imgWriteSlot_assigned {s : State} {slot present : Byte} (r g b : Byte) (h1 : 1 ≤ slot.toNat)
    (h2 : slot.toNat ≤ 128) (hp : present.toNat ≤ 1) (hs : s.slotIsAssigned slot = true) :
    exec (.imgWriteSlot slot r g b present) s =
      .next ((s.memWrite (4 * (slot.toNat - 1)) (colorRecord r g b present)).respondOk 0) := by
  simp only [exec, execImgWriteSlot, validateSlot_of_legal h1 h2 hp, State.writeSlot, hs, if_true, recordAddr_eq h1 h2]

/-- Settles O20: the buffer after the one MemWrite, read at each byte of the record and outside it. -/
theorem imgWriteSlotWritesTheRecord : Obligations.ImgWriteSlotWritesTheRecord := by
  intro s slot r g b present h1 h2 hp hs
  have hread : ∀ j < 4, (s.imgBuf.writeBytes (4 * (slot.toNat - 1)) (colorRecord r g b present)).read
      (4 * (slot.toNat - 1) + j) = (colorRecord r g b present)[j]? := fun j hj =>
    Memory.read_writeBytes_inside _ _ (by rwa [colorRecord_length])
  rw [colorRecord_bytes] at hread
  refine ⟨s.imgBuf.writeBytes (4 * (slot.toNat - 1)) (colorRecord r g b present), ?_⟩
  rw [exec_imgWriteSlot_assigned r g b h1 h2 hp hs, colorRecord_bytes]
  exact ⟨hread 0 (by decide), hread 1 (by decide), hread 2 (by decide), hread 3 (by decide),
    fun a ha => Memory.read_writeBytes_outside ha, rfl⟩

/-! ### Commands that write no image -/

/-- Settles O45: such a command keeps the list of written bytes itself, so every byte of IMG_BUF. -/
theorem otherCommandsKeepTheImage : Obligations.OtherCommandsKeepTheImage := by
  intro i s hw
  obtain ⟨t, ht⟩ := exec_next i s
  obtain ⟨hbuf, hlen, hport, hcmds⟩ := exec_keeps_image hw ht
  exact ⟨t, ht, fun a => by rw [hbuf], hlen, exec_slotAssigned ht, hport, hcmds⟩

end Sys2Proof.Machine
end

section
/-! PROOFS. A step takes a legal word and runs its instruction (R83), and when the transport's answers come makes no
difference (R59, R161). -/

namespace Sys2Proof.Machine

/-- Settles O5: with BUSY 0 and a legal word first on the port, fetch accepts the word and hands exec its instruction. -/
theorem stepRunsDecodedInstruction : Obligations.StepRunsDecodedInstruction := by
  intro s w rest i hb hp hd
  have hfetch : s.fetch = (s.accept w rest, some i) := by simp [State.fetch, hb, hp, hd]
  rw [step, hfetch]
  rfl

/-- Further answers run on from where the answers at hand left the command (R161). -/
theorem State.runCalls_supply (more : List Answer) (s : State) :
    (s.supply more).runCalls = (s.runCalls.supply more).runCalls := by
  have hrun : ∀ u : State, (u.supply more).runCalls = u.takeAnswers (u.answers ++ more) := fun u =>
    State.takeAnswers_withAnswers (u.answers ++ more) (u.answers ++ more) u
  rw [hrun, hrun, State.takeAnswers_append, State.runCalls]

theorem Session.cases_of_owesClose {v : Session} (h : v.owesClose = true) :
    v = .opened ∨ v = .preset ∨ v = .committed := by
  revert h; cases v <;> decide

/-- A session command that waits has issued its first call, and issues the same one whatever further answers are at hand. -/
theorem SessionOutcome.issues_of_busy {s : State} {i : Instr} {t : State} (h : SessionOutcome s i t)
    (ht : t.busy = true) :
    ∃ u : State, t = u.runCalls ∧ ∀ more, exec i (s.supply more) = .next (u.supply more).runCalls := by
  cases h with
  | error => cases ht
  | closeOnly => cases ht
  | opening h => exact ⟨_, rfl, fun more => execSessionOpen_calls (s := s.supply more) h⟩
  | closing h =>
    exact ⟨_, rfl, fun more => execSessionClose_calls (s := s.supply more) (Session.cases_of_owesClose h)⟩
  | preset mode speed brightness color h hv =>
    have hw : (Instr.applyPreset mode speed brightness color).wellFormed = true := by
      rw [wellFormed_iff, ← validatePreset_eq, hv]
    exact ⟨_, rfl, fun more => execApplyPreset_calls (s := s.supply more) h hw⟩
  | upload h hl => exact ⟨_, rfl, fun more => execApplyCustom_calls (s := s.supply more) h hl⟩

/-- A command that waits is a session command: every other one answers at once (R80, R215). -/
theorem SessionOutcome.of_busy {s : State} {i : Instr} {t : State} (h : exec i s = .next t) (ht : t.busy = true) :
    SessionOutcome s i t := by
  rcases exec_next_cases h with ho | ⟨f, m, n, k, r, rfl, -⟩
  · exact ho
  · split at ht <;> cases ht

/-- Settles O43: the command has issued the same first call either way, and answers in two portions do what they do in
one. -/
theorem answerTimingMakesNoDifference : Obligations.AnswerTimingMakesNoDifference := by
  intro i s t more _ hexec hbusy
  obtain ⟨u, rfl, hcall⟩ := (SessionOutcome.of_busy hexec hbusy).issues_of_busy hbusy
  rw [hcall, State.runCalls_supply, step_of_busy (s := u.runCalls.supply more) hbusy]

end Sys2Proof.Machine
end

section
/-! PROOFS. Words and instructions (R71, R72, R78, R86): decoding and encoding undo each other, the legal words are the
rows of the opcode table, and an illegal word is answered by the step itself (R76). -/

namespace Sys2Proof

/-! ### The address of format A -/

/-- Bits [7:1] of lane 1 being zero, that lane is bit 8 of the word, the high bit of the address (R71). -/
theorem addr_high_bit {w : Word} (h : (lane w 1).extractLsb' 1 7 = 0) :
    (w.extractLsb' 8 1).setWidth 8 = lane w 1 := by
  ext j hj
  rcases j with - | j
  · simp [lane]
  · have hz : ((lane w 1).extractLsb' 1 7)[j] = false := by rw [h]; simp
    rw [BitVec.getElem_extractLsb', Nat.add_comm 1 j, BitVec.getLsbD_eq_getElem hj] at hz
    simp [hz]

/-- The address is read back from lanes 0 and 1 (R71). -/
theorem addr_of_pack (a b c d e f : Byte) (addr : Addr) :
    (pack a b c d e f ((addr.extractLsb' 8 1).setWidth 8) (addr.extractLsb' 0 8)).extractLsb' 0 9 = addr := by
  ext j hj
  interval_cases j <;> simp [pack]

/-! ### Decoding and encoding undo each other -/

/-- The operands of an encoding, read from its lanes, are those of the instruction (R71, R86). -/
theorem operands_encode (i : Instr) : i.opcode.operands (encode i) = i := by
  cases i with
  | imgReadByte addr => exact congrArg Instr.imgReadByte (addr_of_pack _ _ _ _ _ _ addr)
  | _ => simp [Instr.opcode, Opcode.operands, encode]

/-- Settles O1: the opcode lane names the instruction's own operation, whose zeros hold, and its lanes are the
operands. -/
theorem decodeOfEncodeIsIdentity : Obligations.DecodeOfEncodeIsIdentity := fun i => by
  rw [decode_of_zeros (lane_encode_7 i) (zerosHold_encode i), operands_encode]

/-- Reserved bits are zero lane by lane, with the bits [7:1] of lane 1 in format A (R71). -/
theorem Format.zerosHold_iff (fmt : Format) (w : Word) :
    fmt.zerosHold w = true ↔
      (∀ l ∈ fmt.zeroLanes, lane w l = 0) ∧ (fmt = .a → (lane w 1).extractLsb' 1 7 = 0) := by
  simp [Format.zerosHold, imp_iff_not_or]

/-- A word whose reserved bits are zero is the encoding of the operands in its lanes (R71, R86). -/
theorem encode_operands {w : Word} {op : Opcode} (h7 : lane w 7 = op.toByte) (hz : op.format.zerosHold w = true) :
    encode (op.operands w) = w := by
  obtain ⟨hlanes, haddr⟩ := (Format.zerosHold_iff _ _).1 hz
  conv_rhs => rw [← pack_lanes w, h7]
  cases op with
  | imgReadByte =>
    have hlow : w.extractLsb' 0 8 = lane w 0 := rfl
    simp only [Opcode.format, Format.zeroLanes, List.forall_mem_cons] at hlanes
    simp [Opcode.operands, encode, Instr.opcode, hlanes, hlow, addr_high_bit (haddr rfl)]
  | _ =>
    simp only [Opcode.format, Format.zeroLanes, List.forall_mem_cons] at hlanes
    simp [Opcode.operands, encode, Instr.opcode, hlanes]

/-- Settles O2: the word is what encode packs, lane by lane. -/
theorem decodedWordIsItsEncoding : Obligations.DecodedWordIsItsEncoding := by
  intro w i h
  obtain ⟨op, h7, hz, rfl⟩ := decode_eq_ok h
  exact encode_operands h7 hz

/-! ### The legal words -/

/-- A word is legal exactly when an operation's row selects it (R78). -/
theorem exists_decode_ok_iff (w : Word) : (∃ i, decode w = .ok i) ↔ ∃ op : Opcode, op.row.selects w = true := by
  simp only [Opcode.row_selects]
  constructor
  · rintro ⟨i, h⟩
    obtain ⟨op, h7, hz, -⟩ := decode_eq_ok h
    exact ⟨op, h7, hz⟩
  · rintro ⟨op, h7, hz⟩
    exact ⟨_, decode_of_zeros h7 hz⟩

theorem mem_opcodeTable {row : TableRow} : row ∈ opcodeTable ↔ ∃ op : Opcode, op.row = row := by
  have hall : ∀ op : Opcode, op ∈ Opcode.all := by intro op; cases op <;> decide
  simp [opcodeTable, hall]

/-- No two opcodes of the map share a byte (R72). -/
theorem Opcode.toByte_injective {op op' : Opcode} (h : op.toByte = op'.toByte) : op = op' :=
  Option.some.inj (by rw [← Opcode.ofByte?_toByte, h, Opcode.ofByte?_toByte])

/-- Settles O3: two rows that select one word have its opcode lane as their own opcode, so they are one. -/
theorem legalWordsAreTheTableRows : Obligations.LegalWordsAreTheTableRows := by
  intro w
  rw [exists_decode_ok_iff]
  constructor
  · rintro ⟨op, hop⟩
    refine ⟨op.row, mem_opcodeTable.2 ⟨op, rfl⟩, hop, fun other hmem hother => ?_⟩
    obtain ⟨op', rfl⟩ := mem_opcodeTable.1 hmem
    obtain ⟨h7, -⟩ := (Opcode.row_selects op w).1 hop
    obtain ⟨h7', -⟩ := (Opcode.row_selects op' w).1 hother
    rw [Opcode.toByte_injective (h7'.symm.trans h7)]
  · rintro ⟨row, hmem, hrow, -⟩
    obtain ⟨op, rfl⟩ := mem_opcodeTable.1 hmem
    exact ⟨op, hrow⟩

/-- Settles O4: each word decoded by evaluation. -/
theorem exampleWordsDecode : Obligations.ExampleWordsDecode := by
  unfold Obligations.ExampleWordsDecode
  decide

end Sys2Proof

namespace Sys2Proof.Machine

theorem extractLsb'_high_eq_zero_iff : ∀ b : Byte, b.extractLsb' 1 7 = 0 ↔ b.toNat ≤ 1 := by decide

/-- An illegal word does not decode (R76, R78). -/
theorem decode_of_illegalWord {w : Word} (h : illegalWord w) : ∃ e, decode w = .error e := by
  cases hd : decode w with
  | error e => exact ⟨e, rfl⟩
  | ok i =>
    obtain ⟨op, h7, hz, -⟩ := decode_eq_ok hd
    obtain ⟨hlanes, haddr⟩ := (Format.zerosHold_iff _ _).1 hz
    rcases h op h7 with ⟨l, hl, hne⟩ | ⟨ha, hbits⟩
    · exact absurd (hlanes l hl) hne
    · exact absurd ((extractLsb'_high_eq_zero_iff _).1 (haddr ha)) (by omega)

/-- Settles O6: the word does not decode, and a step accepts such a word and raises IllegalCommand. -/
theorem illegalWordRaisesIllegalCommand : Obligations.IllegalWordRaisesIllegalCommand := by
  intro s w rest hb hp hill
  obtain ⟨e, hd⟩ := decode_of_illegalWord hill
  have hfetch : s.fetch = ((s.accept w rest).raiseIllegal, none) := by simp [State.fetch, hb, hp, hd]
  rw [step, hfetch, hb]
  rfl

end Sys2Proof.Machine
end

section
/-! PROOFS. What the operand checks decide (R74, R77, R106, R133): the first bad operand is the response, and a
well-formed command never answers ValidationError. -/

namespace Sys2Proof.Machine

/-! ### The first failing check -/

/-- A command whose operand checks fail raises ValidationError for the first that does (R77, R106, R133). -/
theorem exec_of_bad_operand {i : Instr} (s : State) {bad : FieldCode × Byte}
    (h : i.checksInOrder.find? (fun c => !c.1.allows c.2) = some bad) : exec i s = .next (s.raiseValidation bad) := by
  cases i with
  | encodeFrame => rw [← validateFrame_eq] at h; simp only [exec, execEncodeFrame, h]
  | encodeColor => rw [← validatePresent_eq] at h; simp only [exec, execEncodeColor, h]
  | imgWriteSlot => rw [← validateSlot_eq] at h; simp only [exec, execImgWriteSlot, h]
  | applyPreset => rw [← validatePreset_eq] at h; simp only [exec, execApplyPreset, h]
  | _ => cases h

/-- Settles O17: raising ValidationError is one response and the registers it sets. -/
theorem firstBadOperandIsReported : Obligations.FirstBadOperandIsReported :=
  fun _ s _ h => exec_of_bad_operand s h

/-! ### Responses other than ValidationError -/

/-- No response yet, or one with another code than ValidationError. -/
def State.NoValidationError (s t : State) : Prop :=
  t.responses = s.responses ∨ ∃ r, t.responses = s.responses ++ [r] ∧ r.code ≠ .validationError

theorem State.noValidationError_respond {s u : State} {code : RspCode} (field : FieldCode) (data : Word)
    (hr : u.responses = s.responses) (hc : code ≠ .validationError) :
    State.NoValidationError s (u.respond code field data) :=
  .inr ⟨⟨code, field, data⟩, by rw [State.respond_responses, hr], hc⟩

theorem State.noValidationError_respondOk {s u : State} (data : Word) (hr : u.responses = s.responses) :
    State.NoValidationError s (u.respondOk data) :=
  State.noValidationError_respond .noField data hr nofun

/-- A command that ends with the outcome of a call ends in another error or in OK (R164, R170, R172, R175, R180). -/
theorem State.goOn_lastErr (k : Resume) (o : CallOutcome) {s : State} (h : (s.goOn k o).inFlight = none) :
    (s.goOn k o).lastErr ≠ .validationError := by
  cases k with
  | opening => cases o <;> simp [State.goOn, State.afterOpen]
  | closing => simp [State.goOn]
  | preset =>
    simp only [State.goOn, State.afterPreset] at h ⊢
    split at h
    · cases h
    · next ho => simp [ho]
  | upload i =>
    have hcall : ∀ (j : Fin 10) (u : State), (u.uploadCall j).inFlight ≠ none := fun j u hu => by
      obtain ⟨g, hg⟩ := (State.continues_uploadCall j u).inFlight
      rw [hg] at hu; cases hu
    simp only [State.goOn, State.afterUpload] at h ⊢
    split_ifs at h ⊢
    · cases h
    · simp
    · exact absurd h (hcall _ _)
    · exact absurd h (hcall _ _)
  | aborting i dirty => simp [State.goOn]

/-- A call just issued, with the answers at hand: the command waits, or ends in no ValidationError. -/
theorem State.noValidationError_of_issued {s u : State} (hu : State.Continues s u) :
    State.NoValidationError s u.runCalls := by
  obtain ⟨⟨g, hg⟩, -, hr, -, -⟩ := hu
  have hended : u.runCalls.inFlight = none → u.runCalls.lastErr ≠ .validationError :=
    State.takeAnswers_keeps (P := fun v => v.inFlight = none → v.lastErr ≠ .validationError) (fun _ _ h => h)
      (fun _ f a _ _ => State.goOn_lastErr f.resume (f.request.outcome a)) u.answers u (fun h => by simp [hg] at h)
  rcases State.runCalls_cases hg with ⟨hidle, -, r, hresp, herr, -⟩ | hc
  · exact .inr ⟨r, by rw [hresp, hr], herr ▸ hended hidle⟩
  · exact .inl (hc.responses.trans hr)

/-- A well-formed command has passed its checks and answers something else, or waits at a call (R74, R77). -/
theorem exec_of_wellFormed {i : Instr} (s : State) (h : i.wellFormed = true) :
    ∃ t, exec i s = .next t ∧ State.NoValidationError s t := by
  have hissue : ∀ q k, State.NoValidationError s (s.issue q k).runCalls := fun q k =>
    State.noValidationError_of_issued ⟨⟨_, rfl⟩, rfl, rfl, rfl, rfl⟩
  have hstate : State.NoValidationError s s.raiseState := State.noValidationError_respond _ _ rfl nofun
  have hpass := (wellFormed_iff i).1 h
  cases i with
  | encodeFrame =>
    rw [← validateFrame_eq] at hpass
    simp only [exec, execEncodeFrame, hpass]
    exact ⟨_, rfl, State.noValidationError_respondOk _ rfl⟩
  | encodeColor =>
    rw [← validatePresent_eq] at hpass
    simp only [exec, execEncodeColor, hpass]
    exact ⟨_, rfl, State.noValidationError_respondOk _ rfl⟩
  | imgClear => exact ⟨_, rfl, State.noValidationError_respondOk _ (by simp only [State.memWrite_responses])⟩
  | imgWriteSlot slot r g b present =>
    rw [← validateSlot_eq] at hpass
    simp only [exec, execImgWriteSlot, hpass]
    refine ⟨_, rfl, State.noValidationError_respondOk _ ?_⟩
    unfold State.writeSlot
    split <;> rfl
  | imgLoadBegin => exact ⟨_, rfl, State.noValidationError_respondOk _ rfl⟩
  | imgLoadByte data =>
    refine ⟨_, rfl, State.noValidationError_respondOk _ ?_⟩
    unfold State.loadByte
    split <;> rfl
  | imgReadByte addr =>
    obtain ⟨n, hn⟩ := State.readByte_state addr.toNat s
    exact ⟨_, rfl, State.noValidationError_respondOk _ (by rw [hn])⟩
  | sessionOpen =>
    simp only [exec, execSessionOpen]
    split
    · exact ⟨_, rfl, hissue _ _⟩
    · exact ⟨_, rfl, hstate⟩
  | sessionClose =>
    have hclose : State.NoValidationError s s.finishClose := State.noValidationError_respondOk _ rfl
    simp only [exec, execSessionClose]
    cases s.session with
    | unopened => exact ⟨_, rfl, hstate⟩
    | opened => exact ⟨_, rfl, hissue _ _⟩
    | preset => exact ⟨_, rfl, hissue _ _⟩
    | committed => exact ⟨_, rfl, hissue _ _⟩
    | uploading => exact ⟨_, rfl, hclose⟩
    | failed => exact ⟨_, rfl, hclose⟩
  | applyPreset mode speed brightness color =>
    rw [← validatePreset_eq] at hpass
    simp only [exec, execApplyPreset, hpass]
    split
    · exact ⟨_, rfl, State.noValidationError_of_issued ⟨⟨_, rfl⟩, rfl, rfl, rfl, rfl⟩⟩
    · exact ⟨_, rfl, hstate⟩
  | applyCustom =>
    simp only [exec, execApplyCustom]
    split_ifs
    · exact ⟨_, rfl, State.noValidationError_respond _ _ rfl nofun⟩
    · exact ⟨_, rfl, State.noValidationError_of_issued (State.continues_uploadCall 0 s)⟩
    · exact ⟨_, rfl, hstate⟩
  | readStatus => exact ⟨_, rfl, .inr ⟨⟨.ok, .noField, statusWord s⟩, rfl, nofun⟩⟩

/-- Settles O18: well-formed means that no check fails, and then the command's response is none of the checks'. -/
theorem wellFormedNeverValidationError : Obligations.WellFormedNeverValidationError := by
  refine ⟨fun i => ?_, fun _ s h => exec_of_wellFormed s h⟩
  rw [← Bool.not_eq_true, wellFormed_iff, ← ne_eq, Option.ne_none_iff_exists']

end Sys2Proof.Machine
end

section
/-! PROOFS. One response per accepted command, but for the one in progress (R80, R83). -/

namespace Sys2Proof.Machine

/-- With no call in flight running calls changes nothing. -/
theorem State.runCalls_of_no_call {s : State} (h : s.inFlight = none) : s.runCalls = s := by
  cases ha : s.answers with
  | nil => exact State.runCalls_of_no_answers ha
  | cons a as => simp only [State.runCalls, ha, State.takeAnswers, h]; rw [← ha, ← h]

/-- No command touches the accepted commands. -/
theorem exec_commands {i : Instr} {s t : State} (h : exec i s = .next t) : t.commands = s.commands := by
  rcases exec_next_cases h with ho | ⟨f, m, n, k, r, rfl, -⟩
  · exact ho.background.commands
  · split <;> rfl

/-- A command in progress that answers once and ends is counted by its response. -/
theorem State.answeredOnce.ends {s t : State} (h : s.answeredOnce) (hs : s.busy = true) (hc : t.commands = s.commands)
    (ht : t.busy = false) {r : Response} (hr : t.responses = s.responses ++ [r]) : t.answeredOnce := by
  simpa [State.answeredOnce, hc, ht, hr, hs] using h

/-- A command in progress that gives no response stays counted by BUSY. -/
theorem State.answeredOnce.waits {s t : State} (h : s.answeredOnce) (hc : t.commands = s.commands)
    (ht : State.Continues s t) : t.answeredOnce := by
  rw [State.answeredOnce, hc, ht.responses, ht.busy]; exact h

/-- Accepting a word between commands counts it by BUSY (R83). -/
theorem State.answeredOnce.accept {s : State} (h : s.answeredOnce) (hb : s.busy = false) (w : Word) (rest : List Word) :
    (s.accept w rest).answeredOnce := by
  simpa [State.answeredOnce, hb] using h

theorem State.answeredOnce_runCalls {s : State} (h : s.answeredOnce) (hb : s.busy = true) :
    s.runCalls.answeredOnce := by
  cases hf : s.inFlight with
  | none => rwa [State.runCalls_of_no_call hf]
  | some f =>
    have hcmds := (State.background_runCalls s).commands
    rcases State.runCalls_cases hf with ⟨-, hidle, r, hr, -, -⟩ | hc
    · exact h.ends hb hcmds hidle hr
    · exact h.waits hcmds hc

theorem exec_keeps_answeredOnce {i : Instr} {s t : State} (h : s.answeredOnce) (hb : s.busy = true)
    (ht : exec i s = .next t) : t.answeredOnce := by
  have hcmds := exec_commands ht
  rcases exec_answered_or_continues ht with ⟨-, ⟨hidle, r, hr, -, -⟩ | hc⟩ | ⟨-, r, rfl⟩
  · exact h.ends hb hcmds hidle hr
  · exact h.waits hcmds hc
  · exact h.ends hb hcmds rfl rfl

/-- Settles O53: BUSY counts the command a step accepts, and its response takes BUSY's place. -/
theorem stepKeepsOneResponsePerCommand : Obligations.StepKeepsOneResponsePerCommand := by
  intro s t h hst
  rcases step_next_cases hst with ⟨hb, rfl⟩ | rfl | ⟨w, rest, hb, rfl⟩ | ⟨w, rest, i, hb, hexec⟩
  · exact State.answeredOnce_runCalls h hb
  · exact h
  · exact (h.accept hb w rest).ends rfl rfl rfl rfl
  · exact exec_keeps_answeredOnce (h.accept hb w rest) rfl hexec

end Sys2Proof.Machine
end

section
/-! PROOFS. The frame checksum encoder (R100 to R112): the checksum law, what its two commands answer, and that both work
from their operands alone. After it, what the commands that drive no session leave alone (R191, R215). -/

namespace Sys2Proof.Machine

/-! ### The checksum -/

/-- The checksum as the difference of R100, its remainder never negative (R11). -/
theorem checksum_toInt (kind mode p1 p2 color flag : Byte) :
    ((checksum kind mode p1 p2 color flag).toNat : Int) =
      (0xFF - (kind.toNat + mode.toNat + p1.toNat + p2.toNat + color.toNat + flag.toNat : Int)) % 256 := by
  have hcs := checksum_toNat kind mode p1 p2 color flag
  omega

/-- The checksum of a frame from its bytes 0 to 6, byte 1 being zero (R103). -/
theorem frame_checksum_toNat {f : Frame} {kind mode p1 p2 color flag : Byte}
    (hf : f = frame kind mode p1 p2 color flag) :
    f.checksum.toNat = 0xFF - (f.kind.toNat + f.byte1.toNat + f.mode.toNat + f.param1.toNat + f.param2.toNat +
      f.color.toNat + f.flag.toNat) % 256 := by
  subst hf
  exact checksum_toNat kind mode p1 p2 color flag

/-- Settles O12: as a number the adder's result is the sum modulo 256, and the complement takes it from 0xFF. -/
theorem checksumIsTheComplementedAdder : Obligations.ChecksumIsTheComplementedAdder := by
  intro kind mode p1 p2 color flag f
  have hcs := frame_checksum_toNat (f := f) rfl
  refine ⟨BitVec.eq_of_toNat_eq ?_, hcs⟩
  simp only [BitVec.toNat_not, BitVec.toNat_add]
  omega

/-- Settles O13: the checksum is what the other seven bytes lack to 0xFF. -/
theorem frameBytesSumTo255 : Obligations.FrameBytesSumTo255 := by
  intro kind mode p1 p2 color flag f
  have hcs := frame_checksum_toNat (f := f) rfl
  omega

/-! ### ENCODE_FRAME and ENCODE_COLOR -/

theorem validateFrame_of_legal {kind mode p1 p2 color flag : Byte} (hk : kind ∈ legalKinds) (hm : mode ∈ legalModes)
    (h1 : p1.toNat ≤ 10) (h2 : p2.toNat ≤ 51) (hc : color.toNat ≤ 7) (hf : flag.toNat ≤ 1) :
    validateFrame kind mode p1 p2 color flag = none := by
  rw [validateFrame, if_neg (by omega), if_neg (by omega), if_neg (by omega), if_neg (not_not.2 hm),
    if_neg (not_not.2 hk), if_neg (by omega)]

theorem exec_encodeFrame_legal {kind mode p1 p2 color flag : Byte} (s : State)
    (h : validateFrame kind mode p1 p2 color flag = none) :
    exec (.encodeFrame kind mode p1 p2 color flag) s =
      .next ({ s with frameReg := frame kind mode p1 p2 color flag }.respondOk
        (frame kind mode p1 p2 color flag).toWord) := by
  simp only [exec, execEncodeFrame, h]

theorem exec_encodeColor_legal {present : Byte} (r g b : Byte) (s : State) (h : validatePresent present = none) :
    exec (.encodeColor r g b present) s = .next (s.respondOk (recordWord (colorRecord r g b present))) := by
  simp only [exec, execEncodeColor, h]

/-- Settles O14: legal fields pass the checks, and the lanes of the packed frame are its bytes. -/
theorem encodeFrameAnswersTheFrame : Obligations.EncodeFrameAnswersTheFrame := by
  intro s kind mode p1 p2 color flag hk hm h1 h2 hc hf
  have hv := validateFrame_of_legal hk hm h1 h2 hc hf
  exact ⟨checksum kind mode p1 p2 color flag, (frame kind mode p1 p2 color flag).toWord, checksum_toInt _ _ _ _ _ _,
    lane_pack_0 .., lane_pack_1 .., lane_pack_2 .., lane_pack_3 .., lane_pack_4 .., lane_pack_5 .., lane_pack_6 ..,
    lane_pack_7 .., exec_encodeFrame_legal s hv⟩

/-- Settles O15: present 0 or 1 passes the check, and the lanes of the packed record are its bytes. -/
theorem encodeColorAnswersTheRecord : Obligations.EncodeColorAnswersTheRecord := by
  intro s r g b present hp
  have hv : validatePresent present = none := if_neg (by omega)
  refine ⟨recordWord (colorRecord r g b present), ?_⟩
  rw [exec_encodeColor_legal r g b s hv, colorRecord_bytes]
  exact ⟨lane_pack_0 .., lane_pack_1 .., lane_pack_2 .., lane_pack_3 .., lane_pack_4 .., lane_pack_5 .., lane_pack_6 ..,
    lane_pack_7 .., rfl⟩

/-- An encoder's response and what it makes of FRAME_REG follow from its operands alone, whatever the state (R112). -/
theorem exec_encoder {i : Instr} (h : i.opcode = .encodeFrame ∨ i.opcode = .encodeColor) :
    ∃ (reg : Frame → Frame) (r : Response), ∀ s : State,
      exec i s = .next (State.respond r.code r.field r.data { s with frameReg := reg s.frameReg }) := by
  cases i with
  | encodeFrame kind mode p1 p2 color flag =>
    cases hv : validateFrame kind mode p1 p2 color flag with
    | none => exact ⟨fun _ => frame kind mode p1 p2 color flag, ⟨.ok, .noField, _⟩, fun s => exec_encodeFrame_legal s hv⟩
    | some bad =>
      rw [validateFrame_eq] at hv
      exact ⟨id, ⟨.validationError, bad.1, bad.2.setWidth 64⟩, fun s => exec_of_bad_operand s hv⟩
  | encodeColor r g b present =>
    cases hv : validatePresent present with
    | none => exact ⟨id, ⟨.ok, .noField, _⟩, fun s => exec_encodeColor_legal r g b s hv⟩
    | some bad =>
      rw [validatePresent_eq r g b] at hv
      exact ⟨id, ⟨.validationError, bad.1, bad.2.setWidth 64⟩, fun s => exec_of_bad_operand s hv⟩
  | _ => rcases h with h | h <;> cases h

/-- Settles O16: the same response and the same change of FRAME_REG in both states. -/
theorem encodersIgnoreImageAndSession : Obligations.EncodersIgnoreImageAndSession := by
  intro i s m n v d h
  obtain ⟨reg, r, hexec⟩ := exec_encoder h
  exact ⟨_, hexec s, rfl, rfl, rfl, rfl, hexec _⟩

/-! ### Commands that drive no session -/

/-- Settles O44: the commands that are no session command write at most FRAME_REG, the image and the draw counter, and
answer once. -/
theorem otherCommandsKeepTheSession : Obligations.OtherCommandsKeepTheSession := by
  intro i s hi
  obtain ⟨u, r, hexec, f, m, n, k, rfl, hframe, -⟩ := exec_other_command hi s
  refine ⟨_, hexec, ?_⟩
  split
  · exact ⟨rfl, rfl, rfl, rfl, rfl, rfl, rfl, rfl, rfl, fun _ => rfl⟩
  · exact ⟨rfl, rfl, rfl, rfl, rfl, rfl, rfl, rfl, rfl, hframe⟩

end Sys2Proof.Machine
end

section
/-! PROOFS. APPLY_PRESET with its report answered OK (R175, R176), by the answers taken one at a time. -/

namespace Sys2Proof.Machine

/-- With no call in flight the answers stay at hand. -/
theorem State.takeAnswers_of_no_call (as : List Answer) {s : State} (h : s.inFlight = none) :
    s.takeAnswers as = { s with answers := as } := by
  cases as with
  | nil => rfl
  | cons a as => simp only [State.takeAnswers, h]

/-- The first answer at hand goes to the call in flight, the others to the calls after it (R161). -/
theorem State.runCalls_cons {s : State} {f : InFlight} {a : Answer} {as : List Answer} (hf : s.inFlight = some f)
    (ha : s.answers = a :: as) : s.runCalls = (s.takeAnswer f a).takeAnswers as := by
  simp only [State.runCalls, ha, State.takeAnswers, hf]

/-- Settles O33: the one call's OK ends the command, so the other answers stay. -/
theorem applyPresetSendsOneFrame : Obligations.ApplyPresetSendsOneFrame := by
  intro s mode speed brightness color rest hw hv ha
  have hcs := checksum_toInt Kind.preset.toByte mode speed brightness color 0
  refine ⟨checksum Kind.preset.toByte mode speed brightness color 0, by simpa [Kind.toByte] using hcs, ?_⟩
  rw [execApplyPreset_calls hv hw, State.runCalls_cons rfl (by exact ha), State.takeAnswers_of_no_call rest rfl]
  rfl

end Sys2Proof.Machine
end

section
/-! PROOFS. What the block sends is legal (R101, R160, R163, R244, R245): every request it issues may be sent, and every
outcome in the trace is one its request can have. -/

namespace Sys2Proof.Machine

/-! ### Requests the block may make -/

theorem Request.canEnd_outcome (q : Request) (a : Answer) : q.canEnd (q.outcome a) = true := by
  cases q <;> cases a <;> rfl

/-- A frame with a recognised mode and flag 0 may be sent (R163, R244). -/
theorem frame_sendable {mode : Byte} (kind p1 p2 color : Byte) (hm : mode ∈ legalModes) :
    (Request.feature (frame kind mode p1 p2 color 0)).sendable :=
  ⟨rfl, hm, fun h => absurd rfl h⟩

theorem beginFrame_sendable : (Request.feature beginFrame).sendable :=
  frame_sendable _ _ _ _ (by decide)

theorem commitFrame_sendable : (Request.feature commitFrame).sendable :=
  ⟨rfl, by decide, fun _ => rfl⟩

/-- A mode that has passed the checks of APPLY_PRESET is recognised (R106). -/
theorem mode_legal_of_validatePreset {mode speed brightness color : Byte}
    (h : validateFrame Kind.preset.toByte mode speed brightness color 0 = none) : mode ∈ legalModes := by
  rw [validatePreset_eq, List.find?_eq_none] at h
  simpa [allows_mode] using h (.mode, mode) (by simp [Instr.checksInOrder])

/-! ### The call in flight -/

/-- The call in flight, if there is one, may be made. -/
def State.awaitsSendable (s : State) : Prop := ∀ f, s.inFlight = some f → f.request.sendable

theorem State.awaitsSendable_of_idle {s : State} (h : s.inFlight = none) : s.awaitsSendable :=
  fun f hf => by rw [h] at hf; cases hf

theorem State.awaitsSendable_of_inFlight {s : State} {f : InFlight} (hf : s.inFlight = some f)
    (h : f.request.sendable) : s.awaitsSendable :=
  fun g hg => by rw [hf] at hg; cases hg; exact h

/-- Each call of APPLY_CUSTOM may be made: two fixed frames, and chunks of 64 bytes (R180, R181). -/
theorem State.awaitsSendable_uploadCall (i : Fin 10) (s : State) : (s.uploadCall i).awaitsSendable := by
  obtain ⟨f, q, k, he, hq⟩ := State.uploadCall_eq i s
  rw [he]
  refine State.awaitsSendable_of_inFlight rfl ?_
  rcases hq with ⟨-, rfl, rfl⟩ | ⟨-, rfl, rfl⟩ | ⟨-, -, -, d, rfl, hd⟩
  · exact beginFrame_sendable
  · exact commitFrame_sendable
  · exact hd

/-- A command that goes on ends, closes the handle, or makes the next call of APPLY_CUSTOM (R164, R180). -/
theorem State.awaitsSendable_goOn (k : Resume) (o : CallOutcome) {s : State} (h : s.inFlight = none) :
    (s.goOn k o).awaitsSendable := by
  have habort : ∀ i dirty, (s.abort i dirty).awaitsSendable := fun _ _ => State.awaitsSendable_of_inFlight rfl trivial
  cases k with
  | opening => cases o <;> exact State.awaitsSendable_of_idle h
  | closing => exact State.awaitsSendable_of_idle h
  | preset =>
    simp only [State.goOn, State.afterPreset]
    split
    · exact habort _ _
    · exact State.awaitsSendable_of_idle h
  | upload i =>
    simp only [State.goOn, State.afterUpload]
    split_ifs
    · exact habort _ _
    · exact State.awaitsSendable_of_idle h
    · exact State.awaitsSendable_uploadCall _ _
    · exact State.awaitsSendable_uploadCall _ _
  | aborting => exact State.awaitsSendable_of_idle h

/-! ### The trace -/

/-- With the trace kept, only the call in flight is in question. -/
theorem State.sendsOnlySendable.of_same_trace {s t : State} (h : s.sendsOnlySendable) (htr : t.trace = s.trace)
    (hf : t.awaitsSendable) : t.sendsOnlySendable := by
  obtain ⟨hcalls, -⟩ := h
  exact ⟨by rwa [htr], hf⟩

/-- An answer moves the call in flight into the trace, with an outcome of its own (R160, R161). -/
theorem State.sendsOnlySendable_takeAnswer (f : InFlight) (a : Answer) {s : State} (h : s.sendsOnlySendable)
    (hf : s.inFlight = some f) : (s.takeAnswer f a).sendsOnlySendable := by
  obtain ⟨hcalls, hflight⟩ := h
  refine ⟨?_, State.awaitsSendable_goOn _ _ rfl⟩
  rw [State.takeAnswer_trace, List.forall_mem_append, List.forall_mem_singleton]
  exact ⟨hcalls, hflight f hf, Request.canEnd_outcome _ a⟩

theorem State.sendsOnlySendable_runCalls {s : State} (h : s.sendsOnlySendable) : s.runCalls.sendsOnlySendable :=
  State.takeAnswers_keeps (P := State.sendsOnlySendable) (fun _ _ h => h)
    (fun _ f a h hf => State.sendsOnlySendable_takeAnswer f a h hf) s.answers s h

/-- Issuing a call that may be made and running on with the answers at hand keeps what is sent legal. -/
theorem State.sendsOnlySendable_of_issued {s u : State} {f : InFlight} (h : s.sendsOnlySendable)
    (htr : u.trace = s.trace) (hf : u.inFlight = some f) (hq : f.request.sendable) : u.runCalls.sendsOnlySendable :=
  State.sendsOnlySendable_runCalls (h.of_same_trace htr (State.awaitsSendable_of_inFlight hf hq))

/-- The first call of each session command may be made (R170, R172, R175, R180). -/
theorem SessionOutcome.sendsOnlySendable {s : State} {i : Instr} {t : State} (ho : SessionOutcome s i t)
    (h : s.sendsOnlySendable) : t.sendsOnlySendable := by
  cases ho with
  | error => exact h
  | closeOnly => exact h
  | opening => exact State.sendsOnlySendable_of_issued h rfl rfl rfl
  | closing => exact State.sendsOnlySendable_of_issued h rfl rfl trivial
  | preset _ speed brightness color _ hv =>
    exact State.sendsOnlySendable_of_issued h rfl rfl
      (frame_sendable _ speed brightness color (mode_legal_of_validatePreset hv))
  | upload => exact State.sendsOnlySendable_of_issued h rfl rfl beginFrame_sendable

theorem exec_keeps_sendsOnlySendable {i : Instr} {s t : State} (h : s.sendsOnlySendable) (ht : exec i s = .next t) :
    t.sendsOnlySendable := by
  rcases exec_next_cases ht with ho | ⟨f, m, n, k, r, rfl, -⟩
  · exact ho.sendsOnlySendable h
  · split <;> exact h

/-- Settles O55: a step only runs calls, answers, or runs an instruction, and each keeps what is sent legal. -/
theorem stepKeepsTrafficSendable : Obligations.StepKeepsTrafficSendable := by
  intro s t h hst
  rcases step_next_cases hst with ⟨-, rfl⟩ | rfl | ⟨w, rest, -, rfl⟩ | ⟨w, rest, i, -, ht⟩
  · exact State.sendsOnlySendable_runCalls h
  · exact h
  · exact h
  · exact exec_keeps_sendsOnlySendable (s := s.accept w rest) h ht

end Sys2Proof.Machine
end

section
/-! PROOFS. The image packer's commands one by one (R131 to R141): what each leaves in IMG_BUF and IMG_LEN, and that slot
writes win by order in one slot and commute between two. -/

namespace Sys2Proof.Machine

/-! ### IMG_CLEAR -/

/-- IMG_CLEAR is one MemWrite of 512 zeros (R131). -/
theorem exec_imgClear (s : State) :
    exec .imgClear s = .next (State.respondOk 0 { s.memWrite 0 (List.replicate 512 0) with imgLen := 512 }) := rfl

theorem Memory.read_clear (m : Memory) {a : Nat} (h : a < 512) :
    (m.writeBytes 0 (List.replicate 512 0)).read a = some 0 := by
  rw [Memory.read_writeBytes, List.length_replicate, if_pos (by omega), List.getElem?_replicate, if_pos (by omega)]

/-- Settles O19: the buffer after the MemWrite of 512 zeros. -/
theorem imgClearZeroesTheImage : Obligations.ImgClearZeroesTheImage := by
  intro s
  refine ⟨s.imgBuf.writeBytes 0 (List.replicate 512 0), fun a ha => Memory.read_clear _ ha, fun a ha => ?_, ?_⟩
  · exact Memory.read_writeBytes_outside (.inr (by rw [List.length_replicate]; omega))
  · rw [exec_imgClear]
    generalize List.replicate 512 (0 : Byte) = zeros
    rfl

/-! ### IMG_WRITE_SLOT -/

/-- IMG_WRITE_SLOT past its checks is write_slot and an OK (R133). -/
theorem exec_imgWriteSlot_legal {slot present : Byte} (r g b : Byte) (s : State)
    (h : validateSlot slot present = none) :
    exec (.imgWriteSlot slot r g b present) s =
      .next ((s.writeSlot slot (colorRecord r g b present)).respondOk 0) := by
  simp only [exec, execImgWriteSlot, h]

theorem validateSlot_of_wellFormed {slot r g b present : Byte}
    (h : (Instr.imgWriteSlot slot r g b present).wellFormed = true) : validateSlot slot present = none := by
  rw [validateSlot_eq]
  exact (wellFormed_iff _).1 h

/-- The slot of a well-formed IMG_WRITE_SLOT is one of the 128 (R74). -/
theorem slot_range_of_wellFormed {slot r g b present : Byte}
    (h : (Instr.imgWriteSlot slot r g b present).wellFormed = true) : 1 ≤ slot.toNat ∧ slot.toNat ≤ 128 := by
  have hv := validateSlot_of_wellFormed h
  by_contra hout
  rw [validateSlot, if_pos (by omega)] at hv
  cases hv

/-- Settles O21: write_slot drops the record of a slot whose bit of SLOT_ASSIGNED is 0. -/
theorem imgWriteSlotDropsUnassigned : Obligations.ImgWriteSlotDropsUnassigned := by
  intro s slot r g b present h1 h2 hp hs
  have hdrop : s.writeSlot slot (colorRecord r g b present) = s := by
    rw [State.writeSlot, State.slotIsAssigned, hs, if_neg Bool.false_ne_true]
  rw [exec_imgWriteSlot_legal r g b s (validateSlot_of_legal h1 h2 hp), hdrop]
  rfl

@[simp] theorem State.writeSlot_slotAssigned (slot : Byte) (record : List Byte) (s : State) :
    (s.writeSlot slot record).slotAssigned = s.slotAssigned := by
  unfold State.writeSlot
  split <;> rfl

/-- The address lies in the record of a slot that the layout assigns (R51, R130). -/
abbrev State.slotCovers (s : State) (slot : Byte) (x : Nat) : Prop :=
  s.slotIsAssigned slot = true ∧ recordAddr slot ≤ x ∧ x < recordAddr slot + 4

/-- A read after write_slot: the record's byte where the slot covers the address, the old byte elsewhere (R130). -/
theorem State.read_writeSlot {record : List Byte} (hr : record.length = 4) (slot : Byte) (s : State) (x : Nat) :
    (s.writeSlot slot record).imgBuf.read x =
      if s.slotCovers slot x then record[x - recordAddr slot]? else s.imgBuf.read x := by
  by_cases hs : s.slotIsAssigned slot = true
  · rw [State.writeSlot, if_pos hs, State.memWrite_imgBuf, Memory.read_writeBytes, hr]
    simp only [State.slotCovers, hs, true_and]
  · rw [State.writeSlot, if_neg hs, if_neg fun h => hs h.1]

/-- No slot write changes which bytes a slot covers. -/
@[simp] theorem State.slotCovers_writeSlot (s : State) (slot slot' : Byte) (record : List Byte) (x : Nat) :
    (s.writeSlot slot' record).slotCovers slot x ↔ s.slotCovers slot x := by
  simp only [State.slotCovers, State.slotIsAssigned, State.writeSlot_slotAssigned]

/-- A response between two commands makes no difference to what the second writes. -/
@[simp] theorem State.writeSlot_respond_imgBuf (slot : Byte) (record : List Byte) (code : RspCode) (field : FieldCode)
    (data : Word) (s : State) :
    ((s.respond code field data).writeSlot slot record).imgBuf = (s.writeSlot slot record).imgBuf := by
  unfold State.writeSlot State.slotIsAssigned
  rw [State.respond_slotAssigned]
  split <;> rfl

/-- Records of different slots share no byte (R51, R134). -/
theorem State.not_slotCovers_of_ne {s : State} {slot slot' : Byte} {x : Nat}
    (h : 1 ≤ slot.toNat ∧ slot.toNat ≤ 128) (h' : 1 ≤ slot'.toNat ∧ slot'.toNat ≤ 128) (hne : slot ≠ slot')
    (hx : s.slotCovers slot x) : ¬ s.slotCovers slot' x := by
  rintro ⟨-, hx'⟩
  obtain ⟨-, hx⟩ := hx
  rw [recordAddr_eq h.1 h.2] at hx
  rw [recordAddr_eq h'.1 h'.2] at hx'
  exact hne (BitVec.eq_of_toNat_eq (by omega))

/-- In one slot the later record stays (R134). -/
theorem State.read_writeSlot_twice {record record' : List Byte} (hr : record.length = 4) (hr' : record'.length = 4)
    (slot : Byte) (s : State) (x : Nat) :
    ((s.writeSlot slot record).writeSlot slot record').imgBuf.read x = (s.writeSlot slot record').imgBuf.read x := by
  rw [State.read_writeSlot hr', State.read_writeSlot hr', State.read_writeSlot hr]
  simp only [State.slotCovers_writeSlot]
  split_ifs <;> rfl

/-- Writes to different slots commute (R134). -/
theorem State.read_writeSlot_comm {record record' : List Byte} (hr : record.length = 4) (hr' : record'.length = 4)
    {slot slot' : Byte} {s : State} {x : Nat} (h : s.slotCovers slot x → ¬ s.slotCovers slot' x) :
    ((s.writeSlot slot record).writeSlot slot' record').imgBuf.read x =
      ((s.writeSlot slot' record').writeSlot slot record).imgBuf.read x := by
  rw [State.read_writeSlot hr', State.read_writeSlot hr, State.read_writeSlot hr, State.read_writeSlot hr']
  simp only [State.slotCovers_writeSlot]
  split_ifs with hx' hx
  · exact absurd hx' (h hx)
  all_goals rfl

/-- Settles O22: the buffers are canonical, so they are equal when they read alike at every byte. -/
theorem slotWritesLastWinsAndCommute : Obligations.SlotWritesLastWinsAndCommute := by
  intro s a b ab ba slot1 r1 g1 b1 p1 slot2 r2 g2 b2 p2 hs hw1 hw2 ha hab hb hba
  have hcab := exec_keeps_canonical (exec_keeps_canonical hs ha) hab
  have hcb := exec_keeps_canonical hs hb
  have hcba := exec_keeps_canonical hcb hba
  have hlen1 := colorRecord_length r1 g1 b1 p1
  have hlen2 := colorRecord_length r2 g2 b2 p2
  have hv1 := validateSlot_of_wellFormed hw1
  have hv2 := validateSlot_of_wellFormed hw2
  rw [exec_imgWriteSlot_legal _ _ _ _ hv1] at ha hba
  rw [exec_imgWriteSlot_legal _ _ _ _ hv2] at hb hab
  cases ha; cases hb; cases hab; cases hba
  simp only [State.respondOk_eq, State.respond_imgBuf, State.writeSlot_respond_imgBuf, State.canonical]
    at hcab hcb hcba ⊢
  refine ⟨?_, fun hne => ?_⟩
  · rintro rfl
    exact Memory.ext_read hcab hcb fun x => State.read_writeSlot_twice hlen1 hlen2 slot1 s x
  · have hdisj : ∀ x, s.slotCovers slot1 x → ¬ s.slotCovers slot2 x := fun _ =>
      State.not_slotCovers_of_ne (slot_range_of_wellFormed hw1) (slot_range_of_wellFormed hw2) hne
    refine ⟨Memory.ext_read hcab hcba fun x => State.read_writeSlot_comm hlen1 hlen2 (hdisj x), fun x hx => ?_⟩
    rw [State.read_writeSlot hlen1] at hx
    rw [State.read_writeSlot hlen2, if_neg (hdisj x (not_not.1 fun h => hx (if_neg h)))]

/-! ### Raw load -/

theorem exec_imgLoadBegin (s : State) :
    exec .imgLoadBegin s = .next (State.respondOk 0 { s with imgLen := 0 }) := rfl

/-- Settles O23: IMG_LEN is the one register written. -/
theorem imgLoadBeginResetsTheLength : Obligations.ImgLoadBeginResetsTheLength := fun s =>
  ⟨_, exec_imgLoadBegin s, rfl, rfl⟩

theorem exec_imgLoadByte (data : Byte) (s : State) :
    exec (.imgLoadByte data) s = .next ((s.loadByte data).respondOk 0) := rfl

/-- Below 512 the byte goes to IMG_LEN, which advances (R137). -/
theorem State.loadByte_of_lt (data : Byte) {s : State} (h : s.imgLen.val < 512) :
    s.loadByte data = { s with
      imgBuf := s.imgBuf.write s.imgLen.val data, imgLen := ⟨s.imgLen.val + 1, by omega⟩ } :=
  dif_pos h

/-- At 512 and at 513 the byte is dropped (R137). -/
theorem State.loadByte_of_full (data : Byte) {s : State} (h : 512 ≤ s.imgLen.val) :
    s.loadByte data = { s with imgLen := 513 } :=
  dif_neg (by omega)

/-- Settles O24: the one write is at IMG_LEN. -/
theorem imgLoadByteAppends : Obligations.ImgLoadByteAppends := by
  intro s data h
  refine ⟨s.imgBuf.write s.imgLen.val data, ⟨s.imgLen.val + 1, by omega⟩, rfl, ?_, fun a ha => ?_, ?_⟩
  · rw [Memory.read_write, if_pos rfl]
  · rw [Memory.read_write, if_neg ha]
  · rw [exec_imgLoadByte, State.loadByte_of_lt data h]
    rfl

/-- Settles O25: a full image takes no further byte. -/
theorem imgLoadByteOverflowDrops : Obligations.ImgLoadByteOverflowDrops := by
  intro s data h
  rw [exec_imgLoadByte, State.loadByte_of_full data h]
  rfl

/-! ### IMG_READ_BYTE -/

theorem exec_imgReadByte (addr : Addr) (s : State) :
    exec (.imgReadByte addr) s =
      .next ((s.readByte addr.toNat).2.respondOk ((s.readByte addr.toNat).1.setWidth 64)) := rfl

/-- Settles O27: the read of a written byte draws nothing. -/
theorem imgReadByteAnswersTheByte : Obligations.ImgReadByteAnswersTheByte := by
  intro s addr v h
  rw [exec_imgReadByte, State.readByte_written h]
  rfl

/-- Settles O28: the read of a byte nothing has written takes the next draw. -/
theorem imgReadByteUnwrittenIsFree : Obligations.ImgReadByteUnwrittenIsFree := by
  intro s addr h
  rw [exec_imgReadByte, State.readByte_unwritten h]
  rfl

end Sys2Proof.Machine
end

section
/-! PROOFS. Commands issued one after another (R59, R192): the load counting law (R138) and PACK_IMAGE (R150 to R152). -/

namespace Sys2Proof.Machine

/-- With BUSY 0 the block takes the word of the first command and runs it; the others follow from where it ends (R83). -/
theorem State.issueAll_cons {i : Instr} {s t : State} (is : List Instr) (hb : s.busy = false)
    (h : exec i (s.accept (encode i) s.port) = .next t) : State.issueAll (i :: is) s = State.issueAll is t := by
  have hstep : step { s with port := encode i :: s.port } = .next t :=
    (stepRunsDecodedInstruction { s with port := encode i :: s.port } _ s.port i hb rfl
      (decodeOfEncodeIsIdentity i)).trans h
  rw [State.issueAll, if_neg (by simp [hb]), hstep]

/-! ### The load counting law -/

/-- IMG_LEN counts every byte loaded, up to 513 (R137). -/
theorem State.loadByte_imgLen (data : Byte) (s : State) :
    (s.loadByte data).imgLen.val = min (s.imgLen.val + 1) 513 := by
  by_cases h : s.imgLen.val < 512
  · rw [State.loadByte_of_lt data h]
    exact (Nat.min_eq_left (by omega)).symm
  · rw [State.loadByte_of_full data (by omega)]
    exact (Nat.min_eq_right (by omega)).symm

/-- Loading one byte and then writing what there is room for of the others at IMG_LEN is writing what there is room for of
them all (R137). -/
theorem State.loadByte_writeBytes (v : Byte) (vs : List Byte) (s : State) :
    (s.loadByte v).imgBuf.writeBytes (s.loadByte v).imgLen.val (vs.take (512 - (s.loadByte v).imgLen.val)) =
      s.imgBuf.writeBytes s.imgLen.val ((v :: vs).take (512 - s.imgLen.val)) := by
  by_cases h : s.imgLen.val < 512
  · rw [State.loadByte_of_lt v h, show 512 - s.imgLen.val = 512 - (s.imgLen.val + 1) + 1 by omega, List.take_succ_cons]
    rfl
  · rw [State.loadByte_of_full v (by omega), show 512 - s.imgLen.val = 0 by omega]
    rfl

/-- Bytes loaded one after another go to the addresses from IMG_LEN on, as far as there is room, and are all counted, up to
513 (R137, R138). -/
theorem State.issueAll_imgLoadByte (bytes : List Byte) {s : State} (hb : s.busy = false) :
    ∃ t, State.issueAll (bytes.map .imgLoadByte) s = .next t ∧
      t.imgLen.val = min (s.imgLen.val + bytes.length) 513 ∧
      t.imgBuf = s.imgBuf.writeBytes s.imgLen.val (bytes.take (512 - s.imgLen.val)) := by
  induction bytes generalizing s with
  | nil => exact ⟨s, rfl, (Nat.min_eq_left (Nat.le_of_lt_succ s.imgLen.isLt)).symm, by rw [List.take_nil]; rfl⟩
  | cons v vs ih =>
    obtain ⟨t, ht, hlen, hbuf⟩ := ih (s := ((s.accept (encode (.imgLoadByte v)) s.port).loadByte v).respondOk 0) rfl
    rw [List.map_cons, State.issueAll_cons _ hb (exec_imgLoadByte v _), List.length_cons]
    refine ⟨t, ht, ?_, hbuf.trans (State.loadByte_writeBytes v vs (s.accept _ s.port))⟩
    rw [State.respondOk_eq, State.respond_imgLen, State.loadByte_imgLen, State.accept_imgLen] at hlen
    omega

/-- Settles O26: a load from IMG_LEN 0 writes the first 512 bytes from address 0 on. -/
theorem loadCountingLaw : Obligations.LoadCountingLaw := by
  intro s bytes hb
  obtain ⟨t, ht, (hlen : _ = min (0 + bytes.length) 513), (hbuf : _ = s.imgBuf.writeBytes 0 (bytes.take 512))⟩ :=
    State.issueAll_imgLoadByte bytes
      (s := State.respondOk 0 { s.accept (encode .imgLoadBegin) s.port with imgLen := 0 }) rfl
  have hread : ∀ j, t.imgBuf.read j = if j < min bytes.length 512 then bytes[j]? else s.imgBuf.read j := fun j => by
    rw [hbuf, Memory.read_writeBytes, List.length_take]
    split_ifs with h h' h'
    · exact List.getElem?_take_of_lt (by omega)
    · omega
    · omega
    · rfl
  refine ⟨t, by rw [loadImage, State.issueAll_cons _ hb (exec_imgLoadBegin _), ht], ?_,
    fun j hj => by rw [hread, if_pos hj], fun j hj => by rw [hread, if_neg (by omega)]⟩
  rw [hlen]
  split <;> omega

/-! ### PACK_IMAGE -/

/-- The four bytes of slot i are the record of the color, or of none (R51, R110). -/
def Memory.slotHolds (m : Memory) (i : Fin 128) (c : Option ColorRGB) : Prop :=
  m.read (4 * i.val) = some 0 ∧ m.read (4 * i.val + 1) = some (c.elim 0 ColorRGB.r) ∧
    m.read (4 * i.val + 2) = some (c.elim 0 ColorRGB.g) ∧ m.read (4 * i.val + 3) = some (c.elim 0 ColorRGB.b)

/-- Zeros throughout are in each slot the record of no color (R110). -/
theorem Memory.slotHolds_none {m : Memory} (h : ∀ a < 512, m.read a = some 0) (i : Fin 128) : m.slotHolds i none :=
  ⟨h _ (by omega), h _ (by omega), h _ (by omega), h _ (by omega)⟩

theorem Memory.slotHolds_writeBytes_self (m : Memory) (i : Fin 128) (c : ColorRGB) :
    (m.writeBytes (4 * i.val) (colorRecord c.r c.g c.b 1)).slotHolds i (some c) := by
  have hread : ∀ j < 4, (m.writeBytes (4 * i.val) (colorRecord c.r c.g c.b 1)).read (4 * i.val + j) =
      [0, c.r, c.g, c.b][j]? := fun j hj => Memory.read_writeBytes_inside m _ (by rwa [colorRecord_length])
  exact ⟨hread 0 (by decide), hread 1 (by decide), hread 2 (by decide), hread 3 (by decide)⟩

/-- A record written to one slot leaves what another holds (R134). -/
theorem Memory.slotHolds.writeBytes_of_ne {m : Memory} {i k : Fin 128} {o : Option ColorRGB} (h : m.slotHolds i o)
    (hne : i ≠ k) {record : List Byte} (hr : record.length = 4) :
    (m.writeBytes (4 * k.val) record).slotHolds i o := by
  have hread : ∀ j < 4, (m.writeBytes (4 * k.val) record).read (4 * i.val + j) = m.read (4 * i.val + j) :=
    fun j hj => Memory.read_writeBytes_outside (by omega)
  obtain ⟨h0, h1, h2, h3⟩ := h
  exact ⟨(hread 0 (by decide)).trans h0, (hread 1 (by decide)).trans h1, (hread 2 (by decide)).trans h2,
    (hread 3 (by decide)).trans h3⟩

theorem slotNumber_toNat (i : Fin 128) : (slotNumber i).toNat = i.val + 1 := by
  rw [slotNumber, BitVec.toNat_ofNat]
  omega

/-- A slot PACK_IMAGE writes has a name, so the block built with the layout takes the record (R130, R150). -/
theorem exec_imgWriteSlot_packed {s : State} {layout : Fin 128 → Option KeyName} {m : ColorMap} {i : Fin 128}
    {c : ColorRGB} (hs : s.slotAssigned = layoutMask layout) (hc : slotColor layout m i = some c) :
    exec (.imgWriteSlot (slotNumber i) c.r c.g c.b 1) s =
      .next ((s.memWrite (4 * i.val) (colorRecord c.r c.g c.b 1)).respondOk 0) := by
  have hslot := slotNumber_toNat i
  have hassigned : s.slotIsAssigned (slotNumber i) = true := by
    obtain ⟨n, hn, -⟩ := Option.bind_eq_some_iff.1 hc
    rw [State.slotIsAssigned, hs, hslot, Nat.add_sub_cancel, layoutMask_getLsbD, hn, Option.isSome_some]
  rw [exec_imgWriteSlot_assigned c.r c.g c.b (by omega) (by omega) (by decide) hassigned, hslot, Nat.add_sub_cancel]

/-- The slot writes of PACK_IMAGE still to come, of the slots listed (R150). -/
def packWrites (layout : Fin 128 → Option KeyName) (m : ColorMap) (slots : List (Fin 128)) : List Instr :=
  slots.filterMap fun i => (slotColor layout m i).map fun c => .imgWriteSlot (slotNumber i) c.r c.g c.b 1

/-- With every slot at its final record, or at zeros and still to be written, the writes to come leave every slot at its
final record (R150, R151). -/
theorem State.issueAll_packWrites {layout : Fin 128 → Option KeyName} {m : ColorMap} (slots : List (Fin 128)) {s : State}
    (hb : s.busy = false) (hs : s.slotAssigned = layoutMask layout)
    (h : ∀ i, s.imgBuf.slotHolds i (slotColor layout m i) ∨ (i ∈ slots ∧ s.imgBuf.slotHolds i none)) :
    ∃ t, State.issueAll (packWrites layout m slots) s = .next t ∧ t.imgLen = s.imgLen ∧
      ∀ i, t.imgBuf.slotHolds i (slotColor layout m i) := by
  induction slots generalizing s with
  | nil => exact ⟨s, rfl, rfl, fun i => (h i).resolve_right fun hi => List.not_mem_nil hi.1⟩
  | cons k slots ih =>
    cases hc : slotColor layout m k with
    | none =>
      have hskip : packWrites layout m (k :: slots) = packWrites layout m slots :=
        List.filterMap_cons_none (by rw [hc]; rfl)
      rw [hskip]
      refine ih hb hs fun i => ?_
      rcases h i with hfinal | ⟨hi, hzero⟩
      · exact .inl hfinal
      · rcases List.mem_cons.1 hi with rfl | hi
        · exact .inl (by rw [hc]; exact hzero)
        · exact .inr ⟨hi, hzero⟩
    | some c =>
      have hwrite : packWrites layout m (k :: slots) =
          .imgWriteSlot (slotNumber k) c.r c.g c.b 1 :: packWrites layout m slots :=
        List.filterMap_cons_some (by rw [hc]; rfl)
      rw [hwrite, State.issueAll_cons _ hb (exec_imgWriteSlot_packed (by exact hs) hc)]
      refine ih rfl hs fun i => ?_
      by_cases hik : i = k
      · subst hik
        exact .inl (by rw [hc]; exact Memory.slotHolds_writeBytes_self _ i c)
      · have hlen := colorRecord_length c.r c.g c.b 1
        rcases h i with hfinal | ⟨hi, hzero⟩
        · exact .inl (hfinal.writeBytes_of_ne hik hlen)
        · exact .inr ⟨List.mem_of_ne_of_mem hik hi, hzero.writeBytes_of_ne hik hlen⟩

/-- Settles O29: IMG_CLEAR leaves every slot at zeros and counts the image complete, and the writes follow. -/
theorem packImageFillsEverySlot : Obligations.PackImageFillsEverySlot := by
  intro s layout m hb hs
  obtain ⟨cleared, hzero, -, hclear⟩ := imgClearZeroesTheImage (s.accept (encode .imgClear) s.port)
  have hzeros := Memory.slotHolds_none hzero
  rw [packImage, State.issueAll_cons _ hb hclear]
  exact State.issueAll_packWrites (List.finRange 128) rfl hs fun i => .inr ⟨List.mem_finRange i, hzeros i⟩

end Sys2Proof.Machine
end

section
/-! PROOFS. The serializer's commands run to their end (R160 to R191): the wait for an answer, the session they need, what the
outcome of each call makes of them, and the abort. -/

namespace Sys2Proof.Machine

/-! ### Waits and refusals -/

/-- Settles O8: with no answer the calls stay as they are; with nothing offered the port hands over no word. -/
theorem waitingKeepsTheState : Obligations.WaitingKeepsTheState := by
  refine ⟨fun s hb ha => ?_, fun s hb hp => ?_⟩
  · rw [step_of_busy hb, State.runCalls_of_no_answers ha]
  · simp only [step, State.fetch, hb, hp, Bool.false_eq_true, if_false]

/-- Settles O31: past its checks each session command looks at SESSION before it makes a call. -/
theorem wrongSessionIsStateError : Obligations.WrongSessionIsStateError := by
  intro s i hw h
  change exec i s = .next s.raiseState
  rcases h with ⟨rfl, hu, hf⟩ | ⟨rfl, hv⟩ | ⟨hop, hv⟩ | ⟨rfl, hl, hv⟩
  · exact if_neg (not_or.2 ⟨hu, hf⟩)
  · simp only [exec, execSessionClose, hv]
  · cases i with
    | applyPreset => simp only [exec, execApplyPreset, validatePreset_of_wellFormed hw, if_neg hv]
    | _ => cases hop
  · simp only [exec, execApplyCustom, hl, ne_eq, not_true_eq_false, if_false, if_neg hv]

/-! ### One call, one outcome -/

/-- The data of a TransportError as a number (R203). -/
theorem transportErrorData_eq (i : Fin 10) (d : Bool) :
    transportErrorData i.val d = BitVec.ofNat 64 (i.val + if d then 0x100 else 0) := by
  revert i d; decide

/-- The data of a TransportError at the first call shows DEV_INCONSISTENT alone (R203). -/
theorem transportErrorData_zero (d : Bool) : transportErrorData 0 d = if d then 0x100 else 0 := by
  cases d <;> rfl

/-- SESSION_OPEN with its one call answered goes on with the outcome and leaves the other answers (R170). -/
theorem execSessionOpen_answered {s : State} {a : Answer} {rest : List Answer}
    (h : s.session = .unopened ∨ s.session = .failed) (ha : s.answers = a :: rest) :
    exec .sessionOpen s = .next (State.afterOpen ((Request.openDevice Config.device).outcome a) { s with
      inFlight := none, answers := rest
      trace := s.trace ++ [⟨.openDevice Config.device, (Request.openDevice Config.device).outcome a⟩] }) := by
  rw [execSessionOpen_calls h, State.runCalls_cons rfl (by exact ha)]
  cases a <;> exact congrArg _ (State.takeAnswers_of_no_call rest rfl)

/-- Settles O30: the three outcomes of T_OPEN. -/
theorem sessionOpenFollowsTheOutcome : Obligations.SessionOpenFollowsTheOutcome := by
  intro s rest h
  refine ⟨fun ha => ?_, fun ha => ?_, fun ha => ?_⟩
  · exact execSessionOpen_answered h ha
  · exact execSessionOpen_answered h ha
  · rw [execSessionOpen_answered h ha, ← transportErrorData_zero]
    rfl

/-- Settles O32: any answer to T_CLOSE is DONE and ends the command; from Failed there is no call. -/
theorem sessionCloseReleasesTheHandle : Obligations.SessionCloseReleasesTheHandle := by
  refine ⟨fun s a rest h ha => ?_, fun s h => ?_⟩
  · rw [execSessionClose_calls h, State.runCalls_cons rfl (by exact ha), State.takeAnswers_of_no_call rest rfl]
    rfl
  · simp only [exec, execSessionClose, h]
    rfl

/-! ### A call that fails, and the abort's close -/

/-- The answers after an abort's T_CLOSE stay; the close itself ends the command whatever its answer (R164). -/
theorem State.takeAnswers_abort {s : State} {i : Fin 10} {dirty : Bool} (a : Answer) (rest : List Answer)
    (hf : s.inFlight = some ⟨.close, .aborting i dirty⟩) :
    s.takeAnswers (a :: rest) = State.finishAbort i dirty { s with
      inFlight := none, answers := rest, trace := s.trace ++ [⟨.close, .done⟩] } := by
  simp only [State.takeAnswers, hf]
  rw [State.takeAnswers_of_no_call rest rfl]
  rfl

/-- APPLY_PRESET whose report has failed, at the abort's T_CLOSE (R164, R175). -/
def State.atPresetAbort (f : Frame) (s : State) : State :=
  { s with
    frameReg := f, seqStep := some 0, inFlight := some ⟨.close, .aborting 0 false⟩
    trace := s.trace ++ [⟨.feature f, .error⟩] }

/-- APPLY_PRESET whose report fails gives the other answers to the abort (R164, R175). -/
theorem execApplyPreset_error {s : State} {mode speed brightness color : Byte} {as : List Answer}
    (hw : (Instr.applyPreset mode speed brightness color).wellFormed = true) (hv : s.session = .opened)
    (ha : s.answers = .error :: as) :
    exec (.applyPreset mode speed brightness color) s =
      .next ((s.atPresetAbort (presetFrame mode speed brightness color)).takeAnswers as) := by
  rw [execApplyPreset_calls hv hw, State.runCalls_cons rfl (by exact ha)]
  rfl

/-- Settles O34: the abort's T_CLOSE is the second call and the last. -/
theorem applyPresetFailureAborts : Obligations.ApplyPresetFailureAborts := by
  intro s mode speed brightness color a rest hw hv ha
  rw [execApplyPreset_error hw hv ha, State.takeAnswers_abort a rest rfl, ← transportErrorData_zero]
  simp only [State.finishAbort, State.atPresetAbort, Bool.or_false, List.append_assoc]
  rfl

/-! ### The upload to its end -/

/-- APPLY_CUSTOM with its first i calls answered OK gives the other answers to call i and those after it (R185). -/
theorem execApplyCustom_reaches {s : State} (i : Fin 10) {as : List Answer} (hv : s.session = .opened)
    (hl : s.imgLen = 512) (h : s.imageComplete) (ha : s.answers = List.replicate i.val .ok ++ as) :
    exec .applyCustom s = .next ((s.atUploadCall i).takeAnswers as) := by
  have hanswers : (s.uploadCall 0).answers = List.replicate i.val .ok ++ as := by
    rw [State.uploadCall_of_complete h]; exact ha
  rw [execApplyCustom_calls hv hl, State.runCalls, hanswers, State.takeAnswers_append, State.takeAnswers_upload hv h]
  rfl

/-- All ten calls of an upload, each answered OK (R185). -/
theorem State.uploadCallsDone_all (s : State) :
    s.uploadCallsDone 9 ++ [⟨s.uploadRequest 9, .ok⟩] = s.uploadRequests.map fun q => ⟨q, .ok⟩ := by
  have hlen : s.uploadRequests.length = 9 + 1 := by simp [State.uploadRequests]
  have hlast : s.uploadRequests[9]? = some (s.uploadRequest 9) := s.uploadRequests_getElem? 9
  rw [← List.take_of_length_le hlen.le, List.take_add_one, hlast, List.map_append]
  rfl

/-- The OK of the commit frame ends the upload (R180, R183). -/
theorem State.atUploadCall_takeAnswers_commit (s : State) (rest : List Answer) :
    (s.atUploadCall 9).takeAnswers (.ok :: rest) = State.commit { s with
      frameReg := commitFrame, inFlight := none, answers := rest
      trace := s.trace ++ s.uploadRequests.map fun q => ⟨q, .ok⟩ } := by
  have hok : (s.atUploadCall 9).takeAnswers (.ok :: rest) =
      State.takeAnswers rest ((s.atUploadCall 9).takeAnswer ⟨.feature commitFrame, .upload 9⟩ .ok) := rfl
  rw [hok, State.takeAnswers_of_no_call rest rfl, ← State.uploadCallsDone_all, ← List.append_assoc]
  rfl

/-- Settles O35: nine answers OK reach the commit frame, and the tenth ends the command. -/
theorem applyCustomUploadsAndCommits : Obligations.ApplyCustomUploadsAndCommits := by
  intro s rest hv hl h ha
  have hten : s.answers = List.replicate (9 : Fin 10).val .ok ++ .ok :: rest := ha
  rw [execApplyCustom_reaches 9 hv hl h hten, State.atUploadCall_takeAnswers_commit, commitFrame_eq]
  rfl

/-- APPLY_CUSTOM whose call i has failed, at the abort's T_CLOSE (R164, R184). -/
def State.atUploadAbort (s : State) (i : Fin 10) : State :=
  { s.atUploadCall i with
    inFlight := some ⟨.close, .aborting i (i != 0)⟩
    trace := s.trace ++ s.uploadCallsDone i ++ [⟨s.uploadRequest i, .error⟩] }

theorem State.outcome_uploadRequest_error (s : State) (i : Fin 10) : (s.uploadRequest i).outcome .error = .error := by
  unfold State.uploadRequest
  split_ifs <;> rfl

/-- An ERROR at call i starts the abort, which takes the other answers (R164, R184). -/
theorem State.atUploadCall_takeAnswers_error (s : State) (i : Fin 10) (as : List Answer) :
    (s.atUploadCall i).takeAnswers (.error :: as) = (s.atUploadAbort i).takeAnswers as := by
  have herror : (s.atUploadCall i).takeAnswer ⟨s.uploadRequest i, .upload i⟩ .error = s.atUploadAbort i := by
    rw [State.takeAnswer_eq, State.outcome_uploadRequest_error, State.goOn, State.afterUpload, if_pos rfl]
    rfl
  rw [← herror]
  rfl

/-- The failed call as the trace of R185's table gives it. -/
theorem State.uploadRequests_failed (s : State) (i : Fin 10) :
    (s.uploadRequests[i.val]?.toList).map (fun q => (⟨q, .error⟩ : Call)) = [⟨s.uploadRequest i, .error⟩] := by
  rw [State.uploadRequests_getElem?]
  rfl

/-- Settles O36: i answers OK reach call i, its ERROR starts the abort, and the T_CLOSE ends it. -/
theorem applyCustomFailureAborts : Obligations.ApplyCustomFailureAborts := by
  intro s i a rest hv hl h ha
  rw [execApplyCustom_reaches i hv hl h ha, State.atUploadCall_takeAnswers_error, State.takeAnswers_abort a rest rfl,
    ← transportErrorData_eq, State.uploadRequests_failed, ← beginFrame_eq, ← commitFrame_eq]
  rfl

/-- Settles O42: the failed call's ERROR is the last answer, so the command stays at the abort's T_CLOSE. -/
theorem abortWaitsForTheClose : Obligations.AbortWaitsForTheClose := by
  refine ⟨fun s mode speed brightness color hw hv ha => ?_, fun s i hv hl h ha => ?_⟩
  · rw [execApplyPreset_error hw hv ha]
    rfl
  · rw [execApplyCustom_reaches i hv hl h ha, State.atUploadCall_takeAnswers_error, State.uploadRequests_failed,
      ← beginFrame_eq, ← commitFrame_eq]
    rfl

end Sys2Proof.Machine
end

section
/-! PROOFS. Who gains the transport handle (R35, R171): SESSION_OPEN alone, by the OK of its T_OPEN. -/

namespace Sys2Proof.Machine

/-- A T_OPEN in flight gains the handle by the answer OK alone, and SESSION is then Opened (R170). -/
theorem State.runCalls_gains_handle {s : State} (hf : s.inFlight = some ⟨.openDevice Config.device, .opening⟩)
    (hv : s.session.holdsHandle = false) (ht : s.runCalls.session.holdsHandle = true) :
    s.runCalls.session = .opened ∧ s.runCalls.trace = s.trace ++ [⟨.openDevice Config.device, .ok⟩] := by
  cases ha : s.answers with
  | nil =>
    rw [State.runCalls_of_no_answers ha, hv] at ht
    cases ht
  | cons a rest =>
    have hend : (s.takeAnswer ⟨.openDevice Config.device, .opening⟩ a).takeAnswers rest =
        { s.takeAnswer ⟨.openDevice Config.device, .opening⟩ a with answers := rest } :=
      State.takeAnswers_of_no_call rest (by cases a <;> rfl)
    rw [State.runCalls_cons hf ha, hend] at ht ⊢
    cases a with
    | ok => exact ⟨rfl, rfl⟩
    | notFound => exact absurd (hv.symm.trans ht) Bool.false_ne_true
    | error => exact absurd (hv.symm.trans ht) Bool.false_ne_true

/-- A coherent state without the handle that is inside a command is at SESSION_OPEN's T_OPEN (R35). -/
theorem State.coherent.opening {s : State} (hs : s.coherent) (hb : s.busy = true) (hv : s.session.holdsHandle = false) :
    s.inFlight = some ⟨.openDevice Config.device, .opening⟩ := by
  have hholds : s.session.holdsHandle ≠ true := Bool.eq_false_iff.1 hv
  cases hf : s.inFlight with
  | none => simp [State.coherent, hf, hb] at hs
  | some f =>
    obtain ⟨-, hc⟩ := hs.atCall hf
    obtain ⟨q, k⟩ := f
    cases k with
    | opening =>
      obtain ⟨rfl, -⟩ := hc
      rfl
    | closing =>
      obtain ⟨-, -, howes⟩ := hc
      exact absurd (Session.holdsHandle_of_owesClose howes) hholds
    | preset =>
      obtain ⟨-, -, hopened⟩ := hc
      exact absurd (congrArg Session.holdsHandle hopened) hholds
    | upload i =>
      obtain ⟨-, -, hsession, -⟩ := hc
      exact absurd (by rw [hsession]; split <;> rfl) hholds
    | aborting i dirty =>
      obtain ⟨-, -, hsession, -⟩ := hc
      exact absurd (by rw [hsession]; split <;> rfl) hholds

/-- A command that gains the handle is SESSION_OPEN, by the OK of its T_OPEN (R171). -/
theorem exec_gains_handle {i : Instr} {s t : State} (h : exec i s = .next t) (hv : s.session.holdsHandle = false)
    (ht : t.session.holdsHandle = true) :
    i = .sessionOpen ∧ t.session = .opened ∧ t.trace = s.trace ++ [⟨.openDevice Config.device, .ok⟩] := by
  have hlost : ∀ {u : State}, u.session = s.session → u.session.holdsHandle = true → False := fun hu hholds =>
    Bool.false_ne_true (hv.symm.trans ((congrArg Session.holdsHandle hu).symm.trans hholds))
  rcases exec_next_cases h with ho | ⟨f, m, n, k, r, rfl, -⟩
  · cases ho with
    | error => exact (hlost rfl ht).elim
    | closeOnly => cases ht
    | opening => exact ⟨rfl, State.runCalls_gains_handle (s := s.issue _ _) rfl hv ht⟩
    | closing howes => exact (hlost rfl (Session.holdsHandle_of_owesClose howes)).elim
    | preset _ _ _ _ hopened => exact (hlost rfl (congrArg Session.holdsHandle hopened)).elim
    | upload hopened => exact (hlost rfl (congrArg Session.holdsHandle hopened)).elim
  · split at ht <;> exact (hlost rfl ht).elim

/-- Settles O49: the handle is gained inside SESSION_OPEN's T_OPEN or by a SESSION_OPEN just accepted. -/
theorem onlyAnOpenGainsTheHandle : Obligations.OnlyAnOpenGainsTheHandle := by
  intro s t hs hst hv ht
  have hc := step_cases s
  generalize step s = r at hc hst
  cases hc with
  | inProgress hb =>
    obtain ⟨⟩ := hst
    have hf := hs.opening hb hv
    obtain ⟨hopened, htrace⟩ := State.runCalls_gains_handle hf hv ht
    exact ⟨hopened, htrace, .inr ⟨hb, hf⟩⟩
  | waits =>
    obtain ⟨⟩ := hst
    exact absurd (hv.symm.trans ht) Bool.false_ne_true
  | illegal =>
    obtain ⟨⟩ := hst
    exact absurd (hv.symm.trans ht) Bool.false_ne_true
  | runs w rest i hb hp hd =>
    obtain ⟨rfl, hopened, htrace⟩ := exec_gains_handle (s := s.accept w rest) hst hv ht
    exact ⟨hopened, htrace, .inl ⟨hb, by rw [hp, decodedWordIsItsEncoding w _ hd]; rfl⟩⟩

end Sys2Proof.Machine
end

section
/-! PROOFS. Errors are responses (R200 to R208): no state stops the block, and APPLY_CUSTOM reports a length other than 512. -/

namespace Sys2Proof.Machine

/-- Settles O9: by the cases of a step (a command in progress, a wait, an illegal word, an instruction run), and no instruction's
meaning ends in a fault or a refusal. -/
theorem everyStepAnswersNextState : Obligations.EveryStepAnswersNextState := step_next

/-- The ten bits of IMG_LEN hold it without loss, so a data word made of them is IMG_LEN (R25, R202). -/
theorem State.imgLenBits_setWidth (s : State) : s.imgLenBits.setWidth 64 = BitVec.ofNat 64 s.imgLen.val :=
  BitVec.setWidth_ofNat_of_le_of_lt (by decide) (s.imgLen.isLt.trans (by decide))

/-- Settles O38: the length is checked before SESSION, and before any call. -/
theorem applyCustomLengthError : Obligations.ApplyCustomLengthError := by
  intro s h
  have hexec : exec .applyCustom s = .next s.raiseLength := if_pos h
  rw [hexec, State.raiseLength_eq, State.imgLenBits_setWidth]
  rfl

end Sys2Proof.Machine
end
